-- ==== Sys2Proof/Word.lean ====
section
/-! DEFINITION. The values the block moves: bytes, byte strings and 2-byte transfer units
(`00_scope.md` rules R5, R15, R16). -/

namespace Sys2Proof

/-- A character of a command or a byte of a response: `CHAR_W = 8` bits (rule R5). -/
abbrev Byte := BitVec 8

/-- A byte string in natural order, index 0 first (rule R16). -/
abbrev Bytes := List Byte

/-- A unit `<first, second>`: a byte string of length 2 (rule R16), `WORD_W = 16` bits (rule R5). -/
structure XUnit where
  /-- the byte handed to, or received from, the transport first -/
  first : Byte
  /-- the byte handed to, or received from, the transport second -/
  second : Byte
  deriving DecidableEq, Repr, Inhabited

/-- The unit as a byte string. -/
def XUnit.bytes (u : XUnit) : Bytes := [u.first, u.second]

end Sys2Proof
end

