-- ==== Sys2Proof/Config.lean ====
section
/-! DEFINITION. What is fixed for one run: the constants the spec gives, the parameters it leaves
`OPEN` (`00_scope.md` rules R6 to R14, `10_state.md` rule R48), and the free values of the model. -/

namespace Sys2Proof

/-- `TERM_EVEN`, the characters `\r\n` (rule R6; the codes are ASCII, assumption 19). -/
def termEven : Bytes := [0x0D, 0x0A]

/-- `TERM_ODD`, the character `\r` (rule R6). -/
def termOdd : Bytes := [0x0D]

/-- `LINE_TERM`, two bytes (rule R7; the literal is decision D5, assumption 19). -/
def lineTerm : Bytes := [0x0D, 0x0A]

/-- The parameters the spec leaves `OPEN`. Each field's type admits exactly the well-formed values:
`PROMPT_SUFFIX` has 8 bytes (rule R9), `IDLE_PROMPT` at least one (rule R10), `TIMEOUT_POLLS` is
positive (rule R14); `none` is `INF` (rules R13, R14). A duration is a natural number of a unit that
is not named: rule R12 says only that it is not negative, and type and unit are the model's choice
(assumption 1). -/
structure Params where
  /-- `IDLE_BYTE` (rule R8) -/
  idleByte : Byte
  /-- `PROMPT_SUFFIX`, natural order (rule R9) -/
  promptSuffix : Vector Byte 8
  /-- the first byte of `IDLE_PROMPT` (rule R10) -/
  idlePromptHead : Byte
  /-- the other bytes of `IDLE_PROMPT` (rule R10) -/
  idlePromptTail : Bytes
  /-- `PAD_BYTE` (rule R11) -/
  padByte : Byte
  /-- `T_RST_HOLD` (rule R12; type and unit: assumption 1) -/
  tRstHold : Nat
  /-- `T_BOOT` (rule R12; type and unit: assumption 1) -/
  tBoot : Nat
  /-- `T_PHASE` (rule R12; type and unit: assumption 1) -/
  tPhase : Nat
  /-- `N_CMD_MAX`, `none` for `INF` (rule R13) -/
  nCmdMax : Option Nat
  /-- `N_RAW_MAX`, `none` for `INF` (rule R13) -/
  nRawMax : Option Nat
  /-- `TIMEOUT_POLLS` less one, `none` for `INF` (rule R14: positive) -/
  timeoutPred : Option Nat
  deriving DecidableEq, Repr, Inhabited

/-- `IDLE_UNIT = <IDLE_BYTE, IDLE_BYTE>` (rule R8). -/
def Params.idleUnit (p : Params) : XUnit := ⟨p.idleByte, p.idleByte⟩

/-- `IDLE_PROMPT` as a byte string (rule R10). -/
def Params.idlePrompt (p : Params) : Bytes := p.idlePromptHead :: p.idlePromptTail

/-- `PROMPT_SUFFIX` as a byte string (rule R9). -/
def Params.suffix (p : Params) : Bytes := p.promptSuffix.toList

/-- `TIMEOUT_POLLS`, `none` for `INF` (rule R14). -/
def Params.timeoutPolls (p : Params) : Option Nat := p.timeoutPred.map (· + 1)

/-- The reference binding `B_REF` (rule R22): one admissible value of the parameters, for the
spec's own vectors only; no meaning depends on it. -/
def Params.bRef : Params where
  idleByte := 0x15
  promptSuffix := #v[0x0D, 0x0A, 0x4F, 0x4B, 0x0D, 0x0A, 0x3E, 0x20]
  idlePromptHead := 0x0D
  idlePromptTail := [0x0A, 0x3E, 0x20]
  padByte := 0x0A
  tRstHold := 0
  tBoot := 0
  tPhase := 0
  nCmdMax := none
  nRawMax := none
  timeoutPred := none

/-- The machine's parameters at reset: `OPEN` in the spec, so nothing is known of them
(assumption 1). -/
opaque Config.params : Params

/-- FREE VALUE: the `n`-th data-ready sample that no listed draw supplies (rule R20, assumption 2). -/
opaque Config.drawBit : Nat → Bool

/-- FREE VALUE: the `n`-th returned unit that no listed draw supplies (rule R20, assumption 2). -/
opaque Config.drawUnit : Nat → XUnit

/-- FREE VALUE: the unit `PACK(f, i)` gives where the frame lacks either byte of its pair
(`93_implementation_defined.md` V5, assumption 14). -/
opaque Config.packUndefined : Bytes → Nat → XUnit

end Sys2Proof
end

