-- ==== Sys2Proof/Syntax.lean ====
section
/-! DEFINITION. The operations of the block: one constructor per row of `spec/opcode_table.json`. -/

namespace Sys2Proof

/-- One row of the opcode table, with the operands its rule names. Operands that the rule takes from
the state (a phase's) or from the environment (a draw) are no operands of the constructor. -/
inductive Instr where
  /-- INIT, host operation code 0 (rules R87, R151) -/
  | init
  /-- EXEC with its command, host operation code 1 (rules R87, R152) -/
  | exec (c : Bytes)
  /-- S_UNINIT (rule R153) -/
  | sUninit
  /-- S_IDLE (rule R154) -/
  | sIdle
  /-- S_FAULT (rule R155) -/
  | sFault
  /-- S_I_RSTA (rule R156) -/
  | sIRsta
  /-- S_I_RSTR (rule R157) -/
  | sIRstr
  /-- S_I_SEL (rule R158) -/
  | sISel
  /-- S_I_DRAIN (rule R159) -/
  | sIDrain
  /-- S_I_CHECK (rule R160) -/
  | sICheck
  /-- S_X_PAD (rule R161) -/
  | sXPad
  /-- S_X_DESEL1 (rule R162) -/
  | sXDesel1
  /-- S_X_SEL1 (rule R163) -/
  | sXSel1
  /-- S_X_TX (rule R164) -/
  | sXTx
  /-- S_X_DESEL2 (rule R165) -/
  | sXDesel2
  /-- S_X_SEL2 (rule R166) -/
  | sXSel2
  /-- S_X_WAIT1 (rule R167) -/
  | sXWait1
  /-- S_X_RX (rule R168) -/
  | sXRx
  /-- S_X_DESEL3 (rule R169) -/
  | sXDesel3
  /-- S_X_WAIT2 (rule R170) -/
  | sXWait2
  /-- S_X_CLEAN (rule R171) -/
  | sXClean
  /-- PHASE.RESERVED.19 (rule R175) -/
  | phaseReserved19
  /-- PHASE.RESERVED.20_23, code `101pp` (rule R175) -/
  | phaseReserved20 (pp : BitVec 2)
  /-- PHASE.RESERVED.24_31, code `11ppp` (rule R175) -/
  | phaseReserved24 (ppp : BitVec 3)
  /-- RSTA (rule R130) -/
  | rsta
  /-- RSTR (rule R131) -/
  | rstr
  /-- SEL (rule R132) -/
  | sel
  /-- DESEL (rule R133) -/
  | desel
  /-- SAMPLE (rule R134) -/
  | sample
  /-- XCHG with the unit to send (rule R135) -/
  | xchg (u : XUnit)
  /-- RD, count 2 and padding `PAD_BYTE` (rule R136) -/
  | rd
  /-- PRIM.RESERVED, code 7 (rule R93) -/
  | primReserved
  /-- reset(), the module hard reset (rule R137) -/
  | hardReset
  /-- TOGGLE (rule R138) -/
  | toggle
  /-- WAITRDY (rule R139) -/
  | waitrdy
  /-- PAD.EVEN, of a command of even length (rule R100) -/
  | padEven (c : Bytes)
  /-- PAD.ODD, of a command of odd length (rule R100) -/
  | padOdd (c : Bytes)
  /-- PACK of a frame and a word index (rule R101) -/
  | pack (f : Bytes) (k : Nat)
  /-- FRAME of a command (rule R102) -/
  | frame (c : Bytes)
  /-- SWAP of a received unit (rule R110) -/
  | swap (w : XUnit)
  /-- FILT of a swapped unit (rule R111) -/
  | filt (u : XUnit)
  /-- ACC of an accumulator and a received unit (rule R112) -/
  | acc (raw : Bytes) (w : XUnit)
  /-- TRIMI (rule R113) -/
  | trimi (b : Bytes)
  /-- TRIMH (rule R114) -/
  | trimh (b : Bytes)
  /-- TRIMP (rule R115) -/
  | trimp (b : Bytes)
  /-- CLEAN (rule R116) -/
  | clean (raw : Bytes)
  /-- CHECK (rule R117) -/
  | check (raw : Bytes)
  /-- ERR.NONE, fault code 0 (rule R90) -/
  | errNone
  /-- F_INIT, fault code 1 (rule R191) -/
  | fInit
  /-- F_TIMEOUT, fault code 2 (rule R192) -/
  | fTimeout
  /-- F_OVERFLOW, fault code 3 (rule R193) -/
  | fOverflow
  deriving DecidableEq, Repr

end Sys2Proof
end

