-- ==== Sys2Proof/WellFormed.lean ====
section
/-! DEFINITION. Which operations are well formed: the preconditions the rules put on operands. -/

namespace Sys2Proof

/-- The operand conditions of the opcode table and of the rules: PAD.EVEN and PAD.ODD are selected
by the parity of the command length (rule R91), PACK needs a frame of even length and an index
below half of it (rule R101). Every other operand is admitted at every value (rule R93). -/
def Instr.wf : Instr → Bool
  | .padEven c => c.length % 2 == 0
  | .padOdd c => c.length % 2 == 1
  | .pack f k => f.length % 2 == 0 && decide (k < f.length / 2)
  | _ => true

end Sys2Proof
end

