-- ==== Sys2Proof/Decode.lean ====
section
/-! DEFINITION. The decoder, total on any byte string and rejecting by name, and after it the
encoder. The codes are those of `30_encoding.md` rules R87 to R90; because the ten formats share
their code values, the first byte of a word names the format and row (assumption 4). -/

namespace Sys2Proof

/-- Why a byte string is no operation. -/
inductive DecodeError where
  /-- no byte at all -/
  | empty
  /-- the first byte names no format -/
  | unknownFormat (sel : Byte)
  /-- a code byte outside its format's bits -/
  | badCode (sel : Byte) (code : Byte)
  /-- too few or too many bytes for the row -/
  | badLength (sel : Byte)
  /-- the parity bit is not that of the command length (rule R91) -/
  | parityMismatch
  /-- PACK outside its precondition (rule R101) -/
  | packIndex
  deriving DecidableEq, Repr

/-- `F-PHASE`, a 5-bit code (rule R88); codes 19 to 31 are the reserved rows (rule R93). -/
def decodePhase (code : Byte) : Except DecodeError Instr :=
  match code.toNat with
  | 0 => .ok .sUninit
  | 1 => .ok .sIdle
  | 2 => .ok .sFault
  | 3 => .ok .sIRsta
  | 4 => .ok .sIRstr
  | 5 => .ok .sISel
  | 6 => .ok .sIDrain
  | 7 => .ok .sICheck
  | 8 => .ok .sXPad
  | 9 => .ok .sXDesel1
  | 10 => .ok .sXSel1
  | 11 => .ok .sXTx
  | 12 => .ok .sXDesel2
  | 13 => .ok .sXSel2
  | 14 => .ok .sXWait1
  | 15 => .ok .sXRx
  | 16 => .ok .sXDesel3
  | 17 => .ok .sXWait2
  | 18 => .ok .sXClean
  | 19 => .ok .phaseReserved19
  | 20 => .ok (.phaseReserved20 0)
  | 21 => .ok (.phaseReserved20 1)
  | 22 => .ok (.phaseReserved20 2)
  | 23 => .ok (.phaseReserved20 3)
  | 24 => .ok (.phaseReserved24 0)
  | 25 => .ok (.phaseReserved24 1)
  | 26 => .ok (.phaseReserved24 2)
  | 27 => .ok (.phaseReserved24 3)
  | 28 => .ok (.phaseReserved24 4)
  | 29 => .ok (.phaseReserved24 5)
  | 30 => .ok (.phaseReserved24 6)
  | 31 => .ok (.phaseReserved24 7)
  | _ => .error (.badCode 0x00 code)

/-- `F-HOSTOP`, one bit (rule R87); the rest of an EXEC is its command, an `F-CMD` (rule R81). -/
def decodeHostOp : Bytes → Except DecodeError Instr
  | [] => .error (.badLength 0x01)
  | op :: c =>
    match op.toNat with
    | 0 => if c.isEmpty then .ok .init else .error (.badLength 0x01)
    | 1 => .ok (.exec c)
    | _ => .error (.badCode 0x01 op)

/-- `F-PRIM`, three bits (rule R89); an XCHG carries the unit to send, first byte first. -/
def decodePrim : Bytes → Except DecodeError Instr
  | [code] =>
    match code.toNat with
    | 0 => .ok .rsta
    | 1 => .ok .rstr
    | 2 => .ok .sel
    | 3 => .ok .desel
    | 4 => .ok .sample
    | 5 => .error (.badLength 0x02)
    | 6 => .ok .rd
    | 7 => .ok .primReserved
    | _ => .error (.badCode 0x02 code)
  | [code, b0, b1] => if code = 5 then .ok (.xchg ⟨b0, b1⟩) else .error (.badLength 0x02)
  | _ => .error (.badLength 0x02)

/-- The three composites (rules R137 to R139), numbered in the table's order (assumption 4). -/
def decodeComposite (code : Byte) : Except DecodeError Instr :=
  match code.toNat with
  | 0 => .ok .hardReset
  | 1 => .ok .toggle
  | 2 => .ok .waitrdy
  | _ => .error (.badCode 0x03 code)

/-- `F-FRAME`'s selecting bit `PAR` and the command (rules R82, R91, R100). -/
def decodePad : Bytes → Except DecodeError Instr
  | [] => .error (.badLength 0x04)
  | par :: c =>
    match par.toNat with
    | 0 => if c.length % 2 = 0 then .ok (.padEven c) else .error .parityMismatch
    | 1 => if c.length % 2 = 1 then .ok (.padOdd c) else .error .parityMismatch
    | _ => .error (.badCode 0x04 par)

/-- The word index in unary (a byte 1 for each unit, then a byte 0) and the frame after it
(assumption 4); `k` counts the units read so far. -/
def decodePack (k : Nat) : Bytes → Except DecodeError Instr
  | [] => .error (.badLength 0x06)
  | t :: r =>
    match t.toNat with
    | 0 => if r.length % 2 = 0 ∧ k < r.length / 2 then .ok (.pack r k) else .error .packIndex
    | 1 => decodePack (k + 1) r
    | _ => .error (.badCode 0x06 t)

/-- `F-ERR`, two bits (rule R90). -/
def decodeErr (code : Byte) : Except DecodeError Instr :=
  match code.toNat with
  | 0 => .ok .errNone
  | 1 => .ok .fInit
  | 2 => .ok .fTimeout
  | 3 => .ok .fOverflow
  | _ => .error (.badCode 0x0F code)

/-- The decoder: the first byte names the format and row (assumption 4), the rest is the spec's
code or operand. -/
def decode : Bytes → Except DecodeError Instr
  | [] => .error .empty
  | sel :: r =>
    match sel.toNat with
    | 0x00 => match r with
      | [code] => decodePhase code
      | _ => .error (.badLength sel)
    | 0x01 => decodeHostOp r
    | 0x02 => decodePrim r
    | 0x03 => match r with
      | [code] => decodeComposite code
      | _ => .error (.badLength sel)
    | 0x04 => decodePad r
    | 0x05 => .ok (.frame r)
    | 0x06 => decodePack 0 r
    | 0x07 => match r with
      | [r0, r1] => .ok (.swap ⟨r0, r1⟩)
      | _ => .error (.badLength sel)
    | 0x08 => match r with
      | r0 :: r1 :: raw => .ok (.acc raw ⟨r0, r1⟩)
      | _ => .error (.badLength sel)
    | 0x09 => match r with
      | [u0, u1] => .ok (.filt ⟨u0, u1⟩)
      | _ => .error (.badLength sel)
    | 0x0A => .ok (.trimi r)
    | 0x0B => .ok (.trimh r)
    | 0x0C => .ok (.trimp r)
    | 0x0D => .ok (.clean r)
    | 0x0E => .ok (.check r)
    | 0x0F => match r with
      | [code] => decodeErr code
      | _ => .error (.badLength sel)
    | _ => .error (.unknownFormat sel)

/-- The encoder, written from the same tables. -/
def encode : Instr → Bytes
  | .sUninit => [0x00, 0]
  | .sIdle => [0x00, 1]
  | .sFault => [0x00, 2]
  | .sIRsta => [0x00, 3]
  | .sIRstr => [0x00, 4]
  | .sISel => [0x00, 5]
  | .sIDrain => [0x00, 6]
  | .sICheck => [0x00, 7]
  | .sXPad => [0x00, 8]
  | .sXDesel1 => [0x00, 9]
  | .sXSel1 => [0x00, 10]
  | .sXTx => [0x00, 11]
  | .sXDesel2 => [0x00, 12]
  | .sXSel2 => [0x00, 13]
  | .sXWait1 => [0x00, 14]
  | .sXRx => [0x00, 15]
  | .sXDesel3 => [0x00, 16]
  | .sXWait2 => [0x00, 17]
  | .sXClean => [0x00, 18]
  | .phaseReserved19 => [0x00, 19]
  | .phaseReserved20 pp => [0x00, 0b000101#6 ++ pp]
  | .phaseReserved24 ppp => [0x00, 0b00011#5 ++ ppp]
  | .init => [0x01, 0]
  | .exec c => 0x01 :: 1 :: c
  | .rsta => [0x02, 0]
  | .rstr => [0x02, 1]
  | .sel => [0x02, 2]
  | .desel => [0x02, 3]
  | .sample => [0x02, 4]
  | .xchg u => [0x02, 5, u.first, u.second]
  | .rd => [0x02, 6]
  | .primReserved => [0x02, 7]
  | .hardReset => [0x03, 0]
  | .toggle => [0x03, 1]
  | .waitrdy => [0x03, 2]
  | .padEven c => 0x04 :: 0 :: c
  | .padOdd c => 0x04 :: 1 :: c
  | .frame c => 0x05 :: c
  | .pack f k => 0x06 :: (List.replicate k 1 ++ 0 :: f)
  | .swap w => [0x07, w.first, w.second]
  | .acc raw w => 0x08 :: w.first :: w.second :: raw
  | .filt u => [0x09, u.first, u.second]
  | .trimi b => 0x0A :: b
  | .trimh b => 0x0B :: b
  | .trimp b => 0x0C :: b
  | .clean raw => 0x0D :: raw
  | .check raw => 0x0E :: raw
  | .errNone => [0x0F, 0]
  | .fInit => [0x0F, 1]
  | .fTimeout => [0x0F, 2]
  | .fOverflow => [0x0F, 3]

/-- The bytes of a number, most significant first, as many as `k` says (the table's "earliest byte
most significant"). -/
def bytesMsb : Nat → Nat → Bytes
  | 0, _ => []
  | k + 1, w => bytesMsb k (w / 256) ++ [BitVec.ofNat 8 w]

/-- The bytes the decoder is given for a bare word of `spec/opcode_table.json`: such a word does not
say its format, so its width does, and among rows of one width the one that fixes the most bits
(assumption 5). DESIGN CHOICE (assumption 5): an operand to which the table gives no bits is zeros or
empty. So a bare XCHG (`F-PRIM` code 5) sends the unit `<00 00>`, a bare EXEC has the empty command, and
a bare PACK has the index 0. -/
def tableBytes (nbits w : Nat) : Bytes :=
  if nbits ≤ 1 then [0x01, BitVec.ofNat 8 w]
  else if nbits ≤ 2 then [0x0F, BitVec.ofNat 8 w]
  else if nbits ≤ 3 then
    if w = 5 then [0x02, 5, 0, 0] else [0x02, BitVec.ofNat 8 w]
  else if nbits ≤ 8 then
    if w = 0x15 ∧ nbits = 8 then [0x0A, 0x15] else [0x00, BitVec.ofNat 8 w]
  else if nbits ≤ 16 then
    if w = 0x1515 then [0x09, 0x15, 0x15]
    else if w = 0x0D0A then [0x0B, 0x0D, 0x0A]
    else [0x06, 0x00, BitVec.ofNat 8 w, BitVec.ofNat 8 (w / 256)]
  else if nbits ≤ 32 then 0x0E :: bytesMsb 4 w
  else if nbits ≤ 64 then 0x0C :: bytesMsb 8 w
  else []

/-- The instruction this decoder reads from a bare word of the opcode table (assumption 5). -/
def decodeTableWord (nbits w : Nat) : Option Instr :=
  match decode (tableBytes nbits w) with
  | .ok i => some i
  | .error _ => none

end Sys2Proof
end

