-- ==== Sys2Proof/Machine/State.lean ====
section
/-! DEFINITION. The state of the block (`10_state.md`), the reasons a step can stop, and the state
after reset. Plain data only. -/

namespace Sys2Proof.Machine

/-- `PHASE`: 19 names (rule R37) and the reserved codes 19 to 31 (rule R93), `reserved k` being
code `19 + k`. -/
inductive Phase where
  | uninit
  | idle
  | fault
  | iRsta
  | iRstr
  | iSel
  | iDrain
  | iCheck
  | xPad
  | xDesel1
  | xSel1
  | xTx
  | xDesel2
  | xSel2
  | xWait1
  | xRx
  | xDesel3
  | xWait2
  | xClean
  | reserved (k : Fin 13)
  deriving DecidableEq, Repr

/-- The three faults (rule R190). -/
inductive FaultKind where
  | fInit
  | fTimeout
  | fOverflow
  deriving DecidableEq, Repr

/-- The four reasons an offer is refused for (rule R194). -/
inductive RefuseReason where
  | refFaulted
  | refBusy
  | refUninit
  | refTooLong
  deriving DecidableEq, Repr

/-- What the host is told of its last offer (rules R150, R194; assumption 7). -/
inductive Reply where
  | accepted
  | refused (r : RefuseReason)
  deriving DecidableEq, Repr

/-- One item of the trace the module sees (rules R30, R71; assumption 13). The first seven are the
actions on the transport port (rule R95): `RSTA`, `RSTR`, `SEL`, `DESEL`, `S?d`, `X b0 b1` and `R`, the
last with the padding byte it sends twice (rule R136). The last is no port action: the lines that block
reset dropped from 1 to 0 (rules R30, R53, R220; assumption 15). -/
inductive TraceItem where
  | rsta
  | rstr
  | sel
  | desel
  | sample (d : Bool)
  | xchg (u : XUnit)
  | rd (pad : Byte)
  | fall (cs rst : Bool)
  deriving DecidableEq, Repr

/-- What the outside does next (assumption 3): let the block take its own step, present a word to
it, or apply block reset (rule R220). -/
inductive Event where
  | run
  | word (w : Bytes)
  | blockReset
  deriving DecidableEq, Repr

/-- The environment's draws (rule R20, notation of rule R95, assumption 2): the samples `d`, the
units `rx` the reads return, the units `txrx` the exchanges return, and how many opaque draws were
taken after a list was used up. -/
structure Env where
  d : List Bool
  rx : List XUnit
  txrx : List XUnit
  drawn : Nat
  deriving DecidableEq, Repr

/-- The value of a primitive or datapath operation presented by itself (assumption 11). -/
inductive Result where
  | none
  | bit (d : Bool)
  | unit (u : XUnit)
  | units (us : List XUnit)
  | bytes (b : Bytes)
  | kept (keep : Bool)
  | checked (t : Bytes) (isMatch : Bool)
  deriving DecidableEq, Repr

/-- A fault with the `info` of its raise, a phase (rules R19, R191, R192; assumption 9). -/
structure Raise where
  kind : FaultKind
  info : Phase
  deriving DecidableEq, Repr

/-- Why the machine stops with no next state. -/
inductive Fault where
  /-- Raised by the meanings of the three reserved phase rows: a reserved `PHASE` code has no step
  (rules R93, R175, 93 V1). Safe: the model stops. -/
  | stuckReservedPhase (code : BitVec 5)
  /-- Raised by the meaning of PRIM.RESERVED: primitive code 7 names no primitive (rule R93, 93 V2).
  Safe: the model stops. -/
  | stuckReservedPrimitive
  deriving DecidableEq, Repr

/-- Why a step is refused. -/
inductive Refusal where
  /-- Raised by an arm of `exec` whose instruction has no meaning yet. Safe: the model stops. -/
  | notModelled (mnemonic : String)
  /-- Raised by `step` when a presented word decodes to no operation (assumption 22). Safe: the
  model stops. -/
  | undecodable (e : DecodeError)
  deriving DecidableEq, Repr

/-- The state: the elements of rule R31, the constant registers of rule R48, and the model's own
record of the two outside agents. -/
structure State where
  /-- CMD, the latched command (rule R32) -/
  cmd : Bytes
  /-- TXBUF, the padded command (rule R33) -/
  txbuf : Bytes
  /-- TXI, the next word to send (rule R34) -/
  txi : Nat
  /-- RAW, the accumulator (rule R35) -/
  raw : Bytes
  /-- RESP, the result buffer (rule R36) -/
  resp : Bytes
  /-- PHASE, the sequencer (rule R37) -/
  phase : Phase
  /-- CS, 1 selected (rule R39) -/
  cs : Bool
  /-- RST, 1 asserted (rule R40) -/
  rst : Bool
  /-- INIT_OK (rule R42) -/
  initOk : Bool
  /-- ERR (rule R43) -/
  err : Bool
  /-- ERRCODE (rules R43, R90) -/
  errcode : BitVec 2
  /-- DONE (rule R44) -/
  done : Bool
  /-- TOCNT (rule R47); void when `TIMEOUT_POLLS` is `INF` (assumption 16) -/
  tocnt : Nat
  /-- the constant registers (rule R48, assumption 1) -/
  cfg : Params
  /-- model's own: what the outside does next, first event first (assumption 3) -/
  inbox : List Event
  /-- model's own: the draws (assumption 2) -/
  env : Env
  /-- model's own: what the module sees, the port trace and the lines that block reset drops, oldest
  item first (assumptions 13 and 15) -/
  trace : List TraceItem
  /-- model's own: the last value delivered outside a phase (assumption 11) -/
  result : Result
  /-- model's own: the answer to the last offer (assumption 7) -/
  reply : Option Reply
  /-- model's own: the samples that read 0 in a WAITRDY presented by itself (assumption 25) -/
  polls : Nat
  /-- model's own: the last fault raised (assumption 9) -/
  raised : Option Raise
  deriving DecidableEq, Repr

/-- The machine right after block reset (rule R53), with no draw, no event and no trace recorded
(assumptions 1 and 18). -/
def State.reset : State where
  cmd := []
  txbuf := []
  txi := 0
  raw := []
  resp := []
  phase := .uninit
  cs := false
  rst := false
  initOk := false
  err := false
  errcode := 0
  done := false
  tocnt := 0
  cfg := Config.params
  inbox := []
  env := ⟨[], [], [], 0⟩
  trace := []
  result := .none
  reply := none
  polls := 0
  raised := none

end Sys2Proof.Machine
end

