-- ==== Sys2Proof/Machine/Flags.lean ====
section
/-! DEFINITION. The predicates that are computed and never stored (`10_state.md` rules R45, R46). -/

namespace Sys2Proof.Machine

/-- `PAR`, bit 0 of a command's length (rules R46, R91). -/
def parity (c : Bytes) : Nat := c.length % 2

/-- `IS_IDLE` of a swapped unit: both bytes equal `IDLE_BYTE` (rules R46, R85). -/
def isIdle (p : Params) (u : XUnit) : Bool := u == p.idleUnit

/-- `TAIL_IDLE`: the last byte exists and equals `IDLE_BYTE` (rules R46, R113). -/
def tailIdle (p : Params) (b : Bytes) : Bool := b.getLast? == some p.idleByte

/-- `HEAD_TERM`: the first two bytes are `LINE_TERM` (rules R46, R114). -/
def headTerm (b : Bytes) : Bool := decide (2 ≤ b.length) && b.take 2 == lineTerm

/-- `TAIL_PROMPT`: the last 8 bytes are `PROMPT_SUFFIX` (rules R46, R115). -/
def tailPrompt (p : Params) (b : Bytes) : Bool :=
  decide (8 ≤ b.length) && b.drop (b.length - 8) == p.suffix

/-- A phase in which the block rests (rule R37); a reserved code is none (rule R93). -/
def Phase.resting : Phase → Bool
  | .uninit | .idle | .fault => true
  | _ => false

/-- `BUSY` (rule R45). -/
def busy (s : State) : Bool := !s.phase.resting

/-- `len(RAW) + 2 > N_RAW_MAX` (rules R159, R168); never when `N_RAW_MAX` is `INF`. -/
def overRawMax (p : Params) (raw : Bytes) : Bool :=
  match p.nRawMax with
  | none => false
  | some n => decide (raw.length + 2 > n)

/-- `len(c) > N_CMD_MAX` (rule R150); never when `N_CMD_MAX` is `INF`. -/
def overCmdMax (p : Params) (c : Bytes) : Bool :=
  match p.nCmdMax with
  | none => false
  | some n => decide (c.length > n)

/-- After `count` consecutive samples that read 0, one more reaches `TIMEOUT_POLLS` (rule R192); never
when `TIMEOUT_POLLS` is `INF`. -/
def timeoutAfter (p : Params) (count : Nat) : Bool :=
  match p.timeoutPolls with
  | none => false
  | some n => count + 1 == n

/-- `TOCNT + 1 = TIMEOUT_POLLS` (rules R167, R170). -/
def timeoutNow (s : State) : Bool := timeoutAfter s.cfg s.tocnt

/-- Whether the fault exists under the parameters: F_TIMEOUT only when `TIMEOUT_POLLS` is finite,
F_OVERFLOW only when `N_RAW_MAX` is (rules R90, R192, R193). -/
def FaultKind.existsAt (p : Params) : FaultKind → Bool
  | .fInit => true
  | .fTimeout => p.timeoutPolls.isSome
  | .fOverflow => p.nRawMax.isSome

end Sys2Proof.Machine
end

