-- ==== Sys2Proof/Machine/Operands.lean ====
section
/-! DEFINITION. The datapath as pure functions: the command framer (`40_framer.md`) and the
response cleaner (`41_cleaner.md`). -/

namespace Sys2Proof.Machine

/-- `PAD` (rule R100). -/
def pad (c : Bytes) : Bytes := if parity c = 0 then c ++ termEven else c ++ termOdd

/-- `PACK(f, i)`: the later character of the pair first (rule R101). Where `f` lacks either byte of
the pair the unit is a free value (93 V5, assumption 14). DESIGN CHOICE (assumption 14): a frame of odd
length is outside the rule's precondition too; where it has both bytes of the pair, the unit is that of
the rule's pseudocode as written. -/
def packAt (f : Bytes) (i : Nat) : XUnit :=
  match f[2 * i]?, f[2 * i + 1]? with
  | some a, some b => ⟨b, a⟩
  | _, _ => Config.packUndefined f i

/-- `FRAME(c)`: the units sent, ascending word index (rule R102). -/
def frameUnits (c : Bytes) : List XUnit :=
  (List.range ((pad c).length / 2)).map (packAt (pad c))

/-- The numeric view of a unit: the byte that goes first is bits 15:8 (rule R63). -/
def unitWord (u : XUnit) : BitVec 16 := u.first ++ u.second

/-- `SWAP` (rule R110). -/
def swapUnit (u : XUnit) : XUnit := ⟨u.second, u.first⟩

/-- `FILT`, true for `keep` (rule R111). -/
def filtKeep (p : Params) (u : XUnit) : Bool := !isIdle p u

/-- `ACC` (rule R112). -/
def accUnit (p : Params) (raw : Bytes) (w : XUnit) : Bytes :=
  if filtKeep p (swapUnit w) then raw ++ (swapUnit w).bytes else raw

/-- `ACCALL`, over a whole WIRE list from the empty accumulator (rule R112). -/
def accAll (p : Params) (ws : List XUnit) : Bytes := ws.foldl (accUnit p) []

/-- `TRIMI`: every trailing byte equal to `IDLE_BYTE` goes (rule R113). -/
def trimI (p : Params) (b : Bytes) : Bytes := b.rdropWhile (fun x => x == p.idleByte)

/-- `TRIMH`: one leading `LINE_TERM` goes (rule R114). -/
def trimH (b : Bytes) : Bytes := if headTerm b then b.drop 2 else b

/-- `TRIMP`: one trailing `PROMPT_SUFFIX` goes (rule R115). -/
def trimP (p : Params) (b : Bytes) : Bytes :=
  if tailPrompt p b then b.take (b.length - 8) else b

/-- `CLEAN` (rule R116). -/
def cleanRaw (p : Params) (raw : Bytes) : Bytes := trimP p (trimH (trimI p raw))

/-- The bit `match` of `CHECK` (rules R46, R117). -/
def checkMatch (p : Params) (raw : Bytes) : Bool := trimI p raw == p.idlePrompt

end Sys2Proof.Machine
end

