-- ==== Sys2Proof/Machine/Ops.lean ====
section
/-! DEFINITION. The named operations on the state: line writes, draws, transfers, fault entry,
acceptance and refusal of an offer, block reset, and the turns that phases share. -/

namespace Sys2Proof.Machine

/-- `PHASE <- p` (rule R38). -/
def goto (p : Phase) (s : State) : State := { s with phase := p }

/-- The module sees one more port action, after all earlier ones (rule R71). -/
def emit (a : TraceItem) (s : State) : State := { s with trace := s.trace ++ [a] }

/-- A minimum wait: it changes no state (rules R12, R18, R242; assumption 17). -/
def waitAtLeast (_t : Nat) (s : State) : State := s

/-- `T.rst_assert()` (rule R130). -/
def rstAssert (s : State) : State := emit .rsta { s with rst := true }

/-- `T.rst_release()` (rule R131). -/
def rstRelease (s : State) : State := emit .rstr { s with rst := false }

/-- `T.select()`; performed even when `CS` is 1 already (rules R132, R225). -/
def selectLine (s : State) : State := emit .sel { s with cs := true }

/-- `T.deselect()`; performed even when `CS` is 0 already (rules R133, R225). -/
def deselectLine (s : State) : State := emit .desel { s with cs := false }

/-- The value of the next data-ready sample: a listed draw, or a free value (rules R20, R134). -/
def nextBit (s : State) : Bool :=
  match s.env.d with
  | b :: _ => b
  | [] => Config.drawBit s.env.drawn

/-- The environment after that draw. -/
def dropBit (e : Env) : Env :=
  match e.d with
  | _ :: ds => { e with d := ds }
  | [] => { e with drawn := e.drawn + 1 }

/-- The next unit a read returns (rules R20, R136). -/
def nextRx (s : State) : XUnit :=
  match s.env.rx with
  | u :: _ => u
  | [] => Config.drawUnit s.env.drawn

/-- The environment after that draw. -/
def dropRx (e : Env) : Env :=
  match e.rx with
  | _ :: us => { e with rx := us }
  | [] => { e with drawn := e.drawn + 1 }

/-- The next unit an exchange returns (rules R20, R135). -/
def nextTxrx (s : State) : XUnit :=
  match s.env.txrx with
  | u :: _ => u
  | [] => Config.drawUnit s.env.drawn

/-- The environment after that draw. -/
def dropTxrx (e : Env) : Env :=
  match e.txrx with
  | _ :: us => { e with txrx := us }
  | [] => { e with drawn := e.drawn + 1 }

/-- `T.dataReady()`: the state after the sample `nextBit s` (rule R134). -/
def sampleLine (s : State) : State :=
  emit (.sample (nextBit s)) { s with env := dropBit s.env }

/-- `T.exchange(u)`: the state after it; the returned unit is `nextTxrx s` (rule R135). -/
def exchange (u : XUnit) (s : State) : State :=
  emit (.xchg u) { s with env := dropTxrx s.env }

/-- `T.read(2, PAD_BYTE)`: the state after it; the returned unit is `nextRx s` (rule R136). -/
def readUnit (s : State) : State :=
  emit (.rd s.cfg.padByte) { s with env := dropRx s.env }

/-- The `F-ERR` code of a fault (rule R90). -/
def FaultKind.code : FaultKind → BitVec 2
  | .fInit => 1
  | .fTimeout => 2
  | .fOverflow => 3

/-- Fault entry, the effect of `raise f(info)`: `ERR`, `ERRCODE` and `PHASE` are written and
nothing else of the block (rule R198; `raised` reports the `info`, assumption 9). There is no
return from it (rule R199). -/
def faultEntry (f : FaultKind) (info : Phase) (s : State) : State :=
  { s with err := true, errcode := f.code, phase := .fault, raised := some ⟨f, info⟩ }

/-- A fault code performed by itself: the fault is raised with the current phase as `info` where it
exists; a code of a fault that does not exist under the parameters raises nothing (rules R90, R192,
R193; assumption 21). -/
def raiseAlone (f : FaultKind) (s : State) : State :=
  if f.existsAt s.cfg then faultEntry f s.phase s else s

/-- Why an offer is refused, in the order of rule R194; `none` if it is accepted (rule R150). The
offer is INIT for `none` and EXEC of `c` for `some c`. -/
def refusalOf (op : Option Bytes) (s : State) : Option RefuseReason :=
  if s.phase = .fault then some .refFaulted
  else if busy s then some .refBusy
  else match op with
    | none => none
    | some c =>
      if s.phase = .uninit then some .refUninit
      else if overCmdMax s.cfg c then some .refTooLong
      else none

/-- `refuse(reason)`: no state element changes; the host is told (rules R19, R194). -/
def refuse (r : RefuseReason) (s : State) : State := { s with reply := some (.refused r) }

/-- INIT accepted (rule R150). -/
def acceptInit (s : State) : State :=
  { s with initOk := false, done := false, phase := .iRsta, reply := some .accepted }

/-- EXEC accepted (rule R150). -/
def acceptExec (c : Bytes) (s : State) : State :=
  { s with cmd := c, done := false, phase := .xPad, reply := some .accepted }

/-- The line changes the module sees when block reset puts `CS` and `RST` at 0: the lines that stood at
1 fall (rules R30, R53; 95 P3). One item for both: the spec gives their falls no order (assumption 15). -/
def resetFalls (s : State) : List TraceItem :=
  if s.cs || s.rst then [.fall s.cs s.rst] else []

/-- Block reset (rules R53, R220): every element at its reset value, no port action; the module sees
the lines that fall (rule R30). The parameters, the outside's pending events and draws, and the trace
of the past stay (assumption 15). -/
def blockReset (s : State) : State :=
  { State.reset with
    cfg := s.cfg, inbox := s.inbox, env := s.env, trace := s.trace ++ resetFalls s }

/-- `TOCNT <- 0`, when `TOCNT` is present (rules R47, R166, R169; assumption 16). -/
def clearTocnt (s : State) : State :=
  match s.cfg.timeoutPolls with
  | none => s
  | some _ => { s with tocnt := 0 }

/-- `TOCNT <- TOCNT + 1`, when `TOCNT` is present (rules R47, R167, R170). -/
def countZero (s : State) : State :=
  match s.cfg.timeoutPolls with
  | none => s
  | some _ => { s with tocnt := s.tocnt + 1 }

/-- A WAITRDY presented by itself counts one more sample that read 0, when there is a bound
(assumption 25). -/
def countPoll (s : State) : State :=
  match s.cfg.timeoutPolls with
  | none => s
  | some _ => { s with polls := s.polls + 1 }

/-- A WAITRDY presented by itself has ended: the next one counts from 0 (rule R139, assumption 25). -/
def clearPolls (s : State) : State := { s with polls := 0 }

/-- One turn of a busy-wait in phase `self`, which goes on to `after` (rules R139, R167, R170). -/
def waitTurn (self after : Phase) (s : State) : State :=
  if nextBit s then goto after (sampleLine s)
  else if timeoutNow s then faultEntry .fTimeout self (sampleLine s)
  else goto self (countZero (sampleLine s))

/-- One received unit in phase `self`: read, swap, filter, capacity check, append
(rules R159, R168, R197). -/
def receiveUnit (self : Phase) (s : State) : State :=
  if filtKeep s.cfg (swapUnit (nextRx s)) && overRawMax s.cfg s.raw then
    faultEntry .fOverflow self (readUnit s)
  else
    goto self { readUnit s with raw := accUnit s.cfg s.raw (nextRx s) }

/-- One turn of a receive loop in phase `self`, which goes on to `after` (rules R159, R168). -/
def receiveTurn (self after : Phase) (s : State) : State :=
  if nextBit s then receiveUnit self (sampleLine s) else goto after (sampleLine s)

/-- A primitive or datapath operation presented by itself delivers its value (assumption 11). -/
def deliver (r : Result) (s : State) : State := { s with result := r }

/-- What the host can read at any time: `INIT_OK`, `ERR`, `ERRCODE`, `DONE`, `BUSY` (rule R208). -/
structure Status where
  initOk : Bool
  err : Bool
  errcode : BitVec 2
  done : Bool
  busy : Bool
  deriving DecidableEq, Repr

/-- The host reads the status flags (rule R208). -/
def hostStatus (s : State) : Status := ⟨s.initOk, s.err, s.errcode, s.done, busy s⟩

/-- The host reads `RESP`: the result when `BUSY = 0`; a host that reads early, which it must not, gets
the previous result (rules R36, R208, R237). -/
def hostResp (s : State) : Bytes := s.resp

end Sys2Proof.Machine
end

