-- ==== Sys2Proof/Machine/Cleaner.lean ====
section
/-! DEFINITION. The operations of the response cleaner, performed by themselves on their operands
(`41_cleaner.md`; the value is delivered, no element of the block is written: assumption 11). -/

namespace Sys2Proof.Machine

/-- SWAP (rule R110). -/
def execSwap (w : XUnit) (s : State) : Host.Outcome State Fault Refusal :=
  .next (deliver (.unit (swapUnit w)) s)

/-- FILT, true for `keep` (rule R111). -/
def execFilt (u : XUnit) (s : State) : Host.Outcome State Fault Refusal :=
  .next (deliver (.kept (filtKeep s.cfg u)) s)

/-- ACC (rule R112; the function raises no fault). -/
def execAcc (raw : Bytes) (w : XUnit) (s : State) : Host.Outcome State Fault Refusal :=
  .next (deliver (.bytes (accUnit s.cfg raw w)) s)

/-- TRIMI (rule R113). -/
def execTrimi (b : Bytes) (s : State) : Host.Outcome State Fault Refusal :=
  .next (deliver (.bytes (trimI s.cfg b)) s)

/-- TRIMH (rule R114). -/
def execTrimh (b : Bytes) (s : State) : Host.Outcome State Fault Refusal :=
  .next (deliver (.bytes (trimH b)) s)

/-- TRIMP (rule R115). -/
def execTrimp (b : Bytes) (s : State) : Host.Outcome State Fault Refusal :=
  .next (deliver (.bytes (trimP s.cfg b)) s)

/-- CLEAN (rule R116). -/
def execClean (raw : Bytes) (s : State) : Host.Outcome State Fault Refusal :=
  .next (deliver (.bytes (cleanRaw s.cfg raw)) s)

/-- CHECK: the drained content and the bit `match` (rule R117; the function raises no fault). -/
def execCheck (raw : Bytes) (s : State) : Host.Outcome State Fault Refusal :=
  .next (deliver (.checked (trimI s.cfg raw) (checkMatch s.cfg raw)) s)

end Sys2Proof.Machine
end

