-- ==== Sys2Proof/Machine/ExecPhases.lean ====
section
/-! DEFINITION. The eleven EXEC phases (`43_choreography_fsm.md` rules R161 to R171). Each meaning is
the step of its phase; `PHASE` is written, never tested (assumption 20). -/

namespace Sys2Proof.Machine

/-- S_X_PAD (rule R161). -/
def execSXPad (s : State) : Host.Outcome State Fault Refusal :=
  .next (goto .xDesel1 { s with txbuf := pad s.cmd, txi := 0, raw := [] })

/-- S_X_DESEL1 (rule R162). -/
def execSXDesel1 (s : State) : Host.Outcome State Fault Refusal :=
  .next (goto .xSel1 (waitAtLeast s.cfg.tPhase (deselectLine s)))

/-- S_X_SEL1 (rule R163). -/
def execSXSel1 (s : State) : Host.Outcome State Fault Refusal :=
  .next (goto .xTx (waitAtLeast s.cfg.tPhase (selectLine s)))

/-- S_X_TX: one word a step, the returned unit discarded (rule R164). -/
def execSXTx (s : State) : Host.Outcome State Fault Refusal :=
  .next (goto (if s.txi + 1 = s.txbuf.length / 2 then .xDesel2 else .xTx)
    { exchange (packAt s.txbuf s.txi) s with txi := s.txi + 1 })

/-- S_X_DESEL2 (rule R165). -/
def execSXDesel2 (s : State) : Host.Outcome State Fault Refusal :=
  .next (goto .xSel2 (waitAtLeast s.cfg.tPhase (deselectLine s)))

/-- S_X_SEL2 (rule R166). -/
def execSXSel2 (s : State) : Host.Outcome State Fault Refusal :=
  .next (goto .xWait1 (clearTocnt (waitAtLeast s.cfg.tPhase (selectLine s))))

/-- S_X_WAIT1 (rule R167). -/
def execSXWait1 (s : State) : Host.Outcome State Fault Refusal :=
  .next (waitTurn .xWait1 .xRx s)

/-- S_X_RX (rule R168). -/
def execSXRx (s : State) : Host.Outcome State Fault Refusal :=
  .next (receiveTurn .xRx .xDesel3 s)

/-- S_X_DESEL3 (rule R169). -/
def execSXDesel3 (s : State) : Host.Outcome State Fault Refusal :=
  .next (goto .xWait2 (clearTocnt (waitAtLeast s.cfg.tPhase (deselectLine s))))

/-- S_X_WAIT2 (rule R170). -/
def execSXWait2 (s : State) : Host.Outcome State Fault Refusal :=
  .next (waitTurn .xWait2 .xClean s)

/-- S_X_CLEAN (rule R171). -/
def execSXClean (s : State) : Host.Outcome State Fault Refusal :=
  .next (goto .idle { s with resp := cleanRaw s.cfg s.raw, done := true })

end Sys2Proof.Machine
end

