-- ==== Sys2Proof/Machine/FaultCodes.lean ====
section
/-! DEFINITION. The four `F-ERR` rows (`30_encoding.md` rule R90): a fault code is raised by its
fault entry (`60_exceptions.md` rule R198; assumption 21). -/

namespace Sys2Proof.Machine

/-- ERR.NONE: no fault, so no fault entry (rule R90). -/
def execErrNone (s : State) : Host.Outcome State Fault Refusal := .next s

/-- F_INIT raised (rules R191, R198; assumption 21). -/
def execFInit (s : State) : Host.Outcome State Fault Refusal :=
  .next (raiseAlone .fInit s)

/-- F_TIMEOUT raised when `TIMEOUT_POLLS` is finite, else nothing (rules R90, R192, R198; assumption
21). -/
def execFTimeout (s : State) : Host.Outcome State Fault Refusal :=
  .next (raiseAlone .fTimeout s)

/-- F_OVERFLOW raised when `N_RAW_MAX` is finite, else nothing (rules R90, R193, R198; assumption
21). -/
def execFOverflow (s : State) : Host.Outcome State Fault Refusal :=
  .next (raiseAlone .fOverflow s)

end Sys2Proof.Machine
end

