-- ==== Sys2Proof/Machine/Framer.lean ====
section
/-! DEFINITION. The operations of the command framer, performed by themselves on their operands
(`40_framer.md`; the value is delivered, no element of the block is written: assumption 11). -/

namespace Sys2Proof.Machine

/-- PAD.EVEN: appends `TERM_EVEN` (rules R91, R100). -/
def execPadEven (c : Bytes) (s : State) : Host.Outcome State Fault Refusal :=
  .next (deliver (.bytes (c ++ termEven)) s)

/-- PAD.ODD: appends `TERM_ODD` (rules R91, R100). -/
def execPadOdd (c : Bytes) (s : State) : Host.Outcome State Fault Refusal :=
  .next (deliver (.bytes (c ++ termOdd)) s)

/-- PACK (rule R101). -/
def execPack (f : Bytes) (k : Nat) (s : State) : Host.Outcome State Fault Refusal :=
  .next (deliver (.unit (packAt f k)) s)

/-- FRAME (rule R102). -/
def execFrame (c : Bytes) (s : State) : Host.Outcome State Fault Refusal :=
  .next (deliver (.units (frameUnits c)) s)

end Sys2Proof.Machine
end

