-- ==== Sys2Proof/Machine/HostOps.lean ====
section
/-! DEFINITION. The host operations INIT and EXEC: the offer and its acceptance or refusal
(`43_choreography_fsm.md` rules R150 to R152, `60_exceptions.md` rule R194). -/

namespace Sys2Proof.Machine

/-- INIT offered (rules R150, R151). A refusal is a next state too (assumption 7). -/
def execInit (s : State) : Host.Outcome State Fault Refusal :=
  .next (match refusalOf none s with
    | some r => refuse r s
    | none => acceptInit s)

/-- EXEC of `c` offered (rules R150, R152). A refusal is a next state too (assumption 7). -/
def execExec (c : Bytes) (s : State) : Host.Outcome State Fault Refusal :=
  .next (match refusalOf (some c) s with
    | some r => refuse r s
    | none => acceptExec c s)

end Sys2Proof.Machine
end

