-- ==== Sys2Proof/Machine/InitPhases.lean ====
section
/-! DEFINITION. The five INIT phases (`43_choreography_fsm.md` rules R156 to R160). Each meaning is
the step of its phase; `PHASE` is written, never tested (assumption 20). -/

namespace Sys2Proof.Machine

/-- S_I_RSTA (rule R156). -/
def execSIRsta (s : State) : Host.Outcome State Fault Refusal :=
  .next (goto .iRstr (waitAtLeast s.cfg.tRstHold (rstAssert s)))

/-- S_I_RSTR (rule R157). -/
def execSIRstr (s : State) : Host.Outcome State Fault Refusal :=
  .next (goto .iSel (waitAtLeast s.cfg.tBoot (rstRelease s)))

/-- S_I_SEL (rule R158). -/
def execSISel (s : State) : Host.Outcome State Fault Refusal :=
  .next (goto .iDrain { waitAtLeast s.cfg.tPhase (selectLine s) with raw := [] })

/-- S_I_DRAIN (rule R159). -/
def execSIDrain (s : State) : Host.Outcome State Fault Refusal :=
  .next (receiveTurn .iDrain .iCheck s)

/-- S_I_CHECK: `RESP` is written in both outcomes, before the raise (rules R117, R160). -/
def execSICheck (s : State) : Host.Outcome State Fault Refusal :=
  .next (
    if checkMatch s.cfg s.raw then
      goto .idle { s with resp := trimI s.cfg s.raw, initOk := true, done := true }
    else faultEntry .fInit .iCheck { s with resp := trimI s.cfg s.raw })

end Sys2Proof.Machine
end

