-- ==== Sys2Proof/Machine/Primitives.lean ====
section
/-! DEFINITION. The transport primitives and their composites (`42_transport_primitives.md`),
performed by themselves (assumption 11). -/

namespace Sys2Proof.Machine

/-- RSTA (rule R130). -/
def execRsta (s : State) : Host.Outcome State Fault Refusal := .next (rstAssert s)

/-- RSTR (rule R131). -/
def execRstr (s : State) : Host.Outcome State Fault Refusal := .next (rstRelease s)

/-- SEL (rule R132). -/
def execSel (s : State) : Host.Outcome State Fault Refusal := .next (selectLine s)

/-- DESEL (rule R133). -/
def execDesel (s : State) : Host.Outcome State Fault Refusal := .next (deselectLine s)

/-- SAMPLE, result the drawn bit (rule R134). -/
def execSample (s : State) : Host.Outcome State Fault Refusal :=
  .next (deliver (.bit (nextBit s)) (sampleLine s))

/-- XCHG of the unit `u`, result the drawn unit (rule R135). -/
def execXchg (u : XUnit) (s : State) : Host.Outcome State Fault Refusal :=
  .next (deliver (.unit (nextTxrx s)) (exchange u s))

/-- RD, result the drawn unit (rule R136). -/
def execRd (s : State) : Host.Outcome State Fault Refusal :=
  .next (deliver (.unit (nextRx s)) (readUnit s))

/-- PRIM.RESERVED names no primitive (rule R93, assumption 10). -/
def execPrimReserved (_s : State) : Host.Outcome State Fault Refusal :=
  .fault .stuckReservedPrimitive

/-- reset(): assert, wait, release, wait (rule R137; one step here, assumption 12). -/
def execHardReset (s : State) : Host.Outcome State Fault Refusal :=
  .next (waitAtLeast s.cfg.tBoot (rstRelease (waitAtLeast s.cfg.tRstHold (rstAssert s))))

/-- TOGGLE: deselect, wait, select, wait (rule R138; one step here, assumption 12). -/
def execToggle (s : State) : Host.Outcome State Fault Refusal :=
  .next (waitAtLeast s.cfg.tPhase (selectLine (waitAtLeast s.cfg.tPhase (deselectLine s))))

/-- WAITRDY: one sample a step; while it reads 0 the operation presents itself again (assumption 12).
It faults at the `TIMEOUT_POLLS`-th consecutive sample that reads 0 (rule R139), counted from 0 in the
model's own `polls`, `TOCNT` untouched, with the current phase as `info` (assumption 25). -/
def execWaitrdy (s : State) : Host.Outcome State Fault Refusal :=
  .next (
    if nextBit s then deliver (.bit true) (clearPolls (sampleLine s))
    else if timeoutAfter s.cfg s.polls then
      faultEntry .fTimeout s.phase (clearPolls (sampleLine s))
    else { countPoll (sampleLine s) with inbox := .word (encode .waitrdy) :: s.inbox })

end Sys2Proof.Machine
end

