-- ==== Sys2Proof/Machine/Resting.lean ====
section
/-! DEFINITION. The resting phases, in which the block does nothing, and the reserved phase codes,
which have no step (`43_choreography_fsm.md` rules R153 to R155, R175). -/

namespace Sys2Proof.Machine

/-- S_UNINIT: nothing is written, no port action (rule R153, assumption 8). -/
def execSUninit (s : State) : Host.Outcome State Fault Refusal := .next s

/-- S_IDLE: nothing is written, no port action (rule R154, assumption 8). -/
def execSIdle (s : State) : Host.Outcome State Fault Refusal := .next s

/-- S_FAULT: nothing is written, no port action (rule R155, assumption 8). -/
def execSFault (s : State) : Host.Outcome State Fault Refusal := .next s

/-- PHASE.RESERVED.19: no step (rules R93, R175, assumption 10). -/
def execPhaseReserved19 (_s : State) : Host.Outcome State Fault Refusal :=
  .fault (.stuckReservedPhase 19)

/-- PHASE.RESERVED.20_23: no step (rules R93, R175, assumption 10). -/
def execPhaseReserved20 (pp : BitVec 2) (_s : State) : Host.Outcome State Fault Refusal :=
  .fault (.stuckReservedPhase (0b101#3 ++ pp))

/-- PHASE.RESERVED.24_31: no step (rules R93, R175, assumption 10). -/
def execPhaseReserved24 (ppp : BitVec 3) (_s : State) : Host.Outcome State Fault Refusal :=
  .fault (.stuckReservedPhase (0b11#2 ++ ppp))

end Sys2Proof.Machine
end

