-- ==== Sys2Proof/Machine/Dispatch.lean ====
section
/-! DEFINITION. One arm per operation of the opcode table. -/

namespace Sys2Proof.Machine

def exec (i : Instr) (s : State) : Host.Outcome State Fault Refusal :=
  match i with
  | .init => Sys2Proof.Machine.execInit s
  | .exec c => Sys2Proof.Machine.execExec c s
  | .sUninit => Sys2Proof.Machine.execSUninit s
  | .sIdle => Sys2Proof.Machine.execSIdle s
  | .sFault => Sys2Proof.Machine.execSFault s
  | .sIRsta => Sys2Proof.Machine.execSIRsta s
  | .sIRstr => Sys2Proof.Machine.execSIRstr s
  | .sISel => Sys2Proof.Machine.execSISel s
  | .sIDrain => Sys2Proof.Machine.execSIDrain s
  | .sICheck => Sys2Proof.Machine.execSICheck s
  | .sXPad => Sys2Proof.Machine.execSXPad s
  | .sXDesel1 => Sys2Proof.Machine.execSXDesel1 s
  | .sXSel1 => Sys2Proof.Machine.execSXSel1 s
  | .sXTx => Sys2Proof.Machine.execSXTx s
  | .sXDesel2 => Sys2Proof.Machine.execSXDesel2 s
  | .sXSel2 => Sys2Proof.Machine.execSXSel2 s
  | .sXWait1 => Sys2Proof.Machine.execSXWait1 s
  | .sXRx => Sys2Proof.Machine.execSXRx s
  | .sXDesel3 => Sys2Proof.Machine.execSXDesel3 s
  | .sXWait2 => Sys2Proof.Machine.execSXWait2 s
  | .sXClean => Sys2Proof.Machine.execSXClean s
  | .phaseReserved19 => Sys2Proof.Machine.execPhaseReserved19 s
  | .phaseReserved20 pp => Sys2Proof.Machine.execPhaseReserved20 pp s
  | .phaseReserved24 ppp => Sys2Proof.Machine.execPhaseReserved24 ppp s
  | .rsta => Sys2Proof.Machine.execRsta s
  | .rstr => Sys2Proof.Machine.execRstr s
  | .sel => Sys2Proof.Machine.execSel s
  | .desel => Sys2Proof.Machine.execDesel s
  | .sample => Sys2Proof.Machine.execSample s
  | .xchg u => Sys2Proof.Machine.execXchg u s
  | .rd => Sys2Proof.Machine.execRd s
  | .primReserved => Sys2Proof.Machine.execPrimReserved s
  | .hardReset => Sys2Proof.Machine.execHardReset s
  | .toggle => Sys2Proof.Machine.execToggle s
  | .waitrdy => Sys2Proof.Machine.execWaitrdy s
  | .padEven c => Sys2Proof.Machine.execPadEven c s
  | .padOdd c => Sys2Proof.Machine.execPadOdd c s
  | .pack f k => Sys2Proof.Machine.execPack f k s
  | .frame c => Sys2Proof.Machine.execFrame c s
  | .swap w => Sys2Proof.Machine.execSwap w s
  | .filt u => Sys2Proof.Machine.execFilt u s
  | .acc raw w => Sys2Proof.Machine.execAcc raw w s
  | .trimi b => Sys2Proof.Machine.execTrimi b s
  | .trimh b => Sys2Proof.Machine.execTrimh b s
  | .trimp b => Sys2Proof.Machine.execTrimp b s
  | .clean raw => Sys2Proof.Machine.execClean raw s
  | .check raw => Sys2Proof.Machine.execCheck raw s
  | .errNone => Sys2Proof.Machine.execErrNone s
  | .fInit => Sys2Proof.Machine.execFInit s
  | .fTimeout => Sys2Proof.Machine.execFTimeout s
  | .fOverflow => Sys2Proof.Machine.execFOverflow s

end Sys2Proof.Machine
end

