-- ==== Sys2Proof/Machine/Fetch.lean ====
section
/-! DEFINITION. What the machine performs next: the outside's next event, or the phase that `PHASE`
names (`10_state.md` rule R38, assumption 3). -/

namespace Sys2Proof.Machine

/-- The `F-PHASE` code of a phase (rule R88). -/
def Phase.code : Phase → Byte
  | .uninit => 0
  | .idle => 1
  | .fault => 2
  | .iRsta => 3
  | .iRstr => 4
  | .iSel => 5
  | .iDrain => 6
  | .iCheck => 7
  | .xPad => 8
  | .xDesel1 => 9
  | .xSel1 => 10
  | .xTx => 11
  | .xDesel2 => 12
  | .xSel2 => 13
  | .xWait1 => 14
  | .xRx => 15
  | .xDesel3 => 16
  | .xWait2 => 17
  | .xClean => 18
  | .reserved k => BitVec.ofNat 8 (19 + k.val)

/-- The phase of a 5-bit code (rules R88, R93). -/
def phaseOfCode (n : Nat) : Phase :=
  match n with
  | 0 => .uninit
  | 1 => .idle
  | 2 => .fault
  | 3 => .iRsta
  | 4 => .iRstr
  | 5 => .iSel
  | 6 => .iDrain
  | 7 => .iCheck
  | 8 => .xPad
  | 9 => .xDesel1
  | 10 => .xSel1
  | 11 => .xTx
  | 12 => .xDesel2
  | 13 => .xSel2
  | 14 => .xWait1
  | 15 => .xRx
  | 16 => .xDesel3
  | 17 => .xWait2
  | 18 => .xClean
  | n => .reserved (Fin.ofNat 13 (n - 19))

/-- The word the decoder is given when the block takes its own step. -/
def phaseWord (p : Phase) : Bytes := [0x00, p.code]

/-- What is fetched: block reset, or the bytes of an operation, with the state after the event is
taken from the inbox. -/
inductive Fetched where
  | reset (t : State)
  | word (w : Bytes) (t : State)
  deriving DecidableEq, Repr

/-- Fetching: the first event of the inbox is taken; with none, or at `run`, the block performs the
phase that `PHASE` names (rule R38). -/
def fetch (s : State) : Fetched :=
  match s.inbox with
  | [] => .word (phaseWord s.phase) s
  | .run :: rest => .word (phaseWord s.phase) { s with inbox := rest }
  | .word w :: rest => .word w { s with inbox := rest }
  | .blockReset :: rest => .reset (blockReset { s with inbox := rest })

/-- The state in which the next step fetches the bare table word `w` of `nbits` bits: a phase code
goes into `PHASE` and the block is let run; any other word is presented first (assumptions 5, 6). -/
def placeTableWord (s : State) (nbits w : Nat) : State :=
  match tableBytes nbits w with
  | [0x00, code] => { s with phase := phaseOfCode code.toNat, inbox := .run :: s.inbox }
  | bytes => { s with inbox := .word bytes :: s.inbox }

end Sys2Proof.Machine
end

