-- ==== Sys2Proof/Safety.lean ====
section
/-! DEFINITION. The terms claims are made in: the invariant of the block, the arcs of the transition
table, and runs of several steps. -/

namespace Sys2Proof.Machine

/-- The events the outside may cause: letting the block run, block reset, and a word that is a host
operation. The host cannot issue any other row (`42_transport_primitives.md`, `30_encoding.md`
rule R96; assumption 11). -/
def Event.hostLegal : Event → Bool
  | .run => true
  | .blockReset => true
  | .word w =>
    match decode w with
    | .ok .init => true
    | .ok (.exec _) => true
    | _ => false

/-- The level of `INIT_OK` a phase implies (rule R42). -/
def Phase.initOkAt : Phase → Option Bool
  | .uninit | .iRsta | .iRstr | .iSel | .iDrain | .iCheck => some false
  | .fault | .reserved _ => none
  | _ => some true

/-- The level of `DONE` a phase implies (rule R44). -/
def Phase.doneAt : Phase → Option Bool
  | .idle => some true
  | .reserved _ => none
  | _ => some false

/-- The level of `CS` a phase implies (rule R173). -/
def Phase.csAt : Phase → Option Bool
  | .uninit | .xSel1 | .xSel2 | .xWait2 | .xClean => some false
  | .iDrain | .iCheck | .xTx | .xDesel2 | .xWait1 | .xRx | .xDesel3 => some true
  | _ => none

/-- The EXEC phases before the first exchange, after S_X_PAD. -/
def Phase.beforeTx : Phase → Bool
  | .xDesel1 | .xSel1 => true
  | _ => false

/-- The EXEC phases after the last exchange. -/
def Phase.afterTx : Phase → Bool
  | .xDesel2 | .xSel2 | .xWait1 | .xRx | .xDesel3 | .xWait2 | .xClean => true
  | _ => false

/-- The EXEC phases after S_X_PAD in which nothing has been received yet. -/
def Phase.beforeRx : Phase → Bool
  | .xDesel1 | .xSel1 | .xTx | .xDesel2 | .xSel2 | .xWait1 => true
  | _ => false

/-- The invariant of the block: what the rules say holds in every state a run from block reset
reaches while the host only does what it may do. -/
structure BlockInv (s : State) : Prop where
  /-- no reserved phase code (rules R93, R175) -/
  named : ∀ k, s.phase ≠ .reserved k
  /-- `ERR = 1` exactly in `S_FAULT` (rule R43) -/
  errIff : s.err = true ↔ s.phase = .fault
  /-- `ERRCODE` is 0 exactly when `ERR` is (93 V3) -/
  errcodeIff : s.errcode = 0 ↔ s.err = false
  /-- rule R42 -/
  initOkAt : ∀ b, s.phase.initOkAt = some b → s.initOk = b
  /-- rules R44, R198 -/
  doneAt : ∀ b, s.phase.doneAt = some b → s.done = b
  /-- rule R173 -/
  csAt : ∀ b, s.phase.csAt = some b → s.cs = b
  /-- `RST = 1` only between S_I_RSTA and S_I_RSTR (rule R173 e) -/
  rstIff : s.rst = true ↔ s.phase = .iRstr
  /-- before, during and after transmission `TXBUF` is the padded command (rule R33) -/
  framed : (s.phase.beforeTx || s.phase == .xTx || s.phase.afterTx) = true → s.txbuf = pad s.cmd
  /-- rule R34 -/
  txiStart : s.phase.beforeTx = true → s.txi = 0
  /-- rule R34, 93 V5 -/
  txiIn : s.phase = .xTx → s.txi < s.txbuf.length / 2
  /-- rule R34 -/
  txiEnd : s.phase.afterTx = true → s.txi = s.txbuf.length / 2
  /-- rule R34 -/
  txiLe : s.txi ≤ s.txbuf.length / 2
  /-- rule R33 -/
  txbufEven : s.txbuf.length % 2 = 0
  /-- rule R35 -/
  rawEven : s.raw.length % 2 = 0
  /-- rule R161: nothing is received before S_X_RX -/
  rawStart : s.phase.beforeRx = true → s.raw = []
  /-- rules R31, R104 -/
  cmdMax : ∀ n, s.cfg.nCmdMax = some n → s.cmd.length ≤ n
  /-- rules R31, R104 -/
  txbufMax : ∀ n, s.cfg.nCmdMax = some n → s.txbuf.length ≤ n + 2
  /-- rules R31, R104 -/
  rawMax : ∀ n, s.cfg.nRawMax = some n → s.raw.length ≤ n
  /-- rules R47, R104 -/
  tocntMax : ∀ n, s.cfg.timeoutPolls = some n → s.tocnt < n
  /-- the host does only what it may do (rule R208) -/
  legal : ∀ e ∈ s.inbox, e.hostLegal = true

/-- The kind of an item of the trace, for the table of arcs. -/
inductive ActKind where
  | rsta
  | rstr
  | sel
  | desel
  | sample (d : Bool)
  | xchg
  | rd
  | fall
  deriving DecidableEq, Repr

/-- The kind of an item. -/
def TraceItem.kind : TraceItem → ActKind
  | .rsta => .rsta
  | .rstr => .rstr
  | .sel => .sel
  | .desel => .desel
  | .sample d => .sample d
  | .xchg _ => .xchg
  | .rd _ => .rd
  | .fall _ _ => .fall

/-- Whether an item is an action on the port (rule R95); the lines that block reset drops are none
(rule R220). -/
def TraceItem.isPortAction : TraceItem → Bool
  | .fall _ _ => false
  | .rsta | .rstr | .sel | .desel | .sample _ | .xchg _ | .rd _ => true

/-- The port trace of rule R95: the port actions alone. -/
def portTrace (s : State) : List TraceItem := s.trace.filter TraceItem.isPortAction

/-- The levels of `CS` and `RST` after an item, from those before it (rules R39, R40, R53). -/
def TraceItem.drive : Bool × Bool → TraceItem → Bool × Bool
  | (cs, _), .rsta => (cs, true)
  | (cs, _), .rstr => (cs, false)
  | (_, rst), .sel => (true, rst)
  | (_, rst), .desel => (false, rst)
  | (cs, rst), .fall c r => (cs && !c, rst && !r)
  | l, .sample _ => l
  | l, .xchg _ => l
  | l, .rd _ => l

/-- The levels of `CS` and `RST` that a module which saw both at 0 (rule R53) and then the trace knows. -/
def lineLevels (tr : List TraceItem) : Bool × Bool := tr.foldl TraceItem.drive (false, false)

/-- The trace shows every change of the two lines: who replays it knows their levels (rule R30). -/
def TraceShowsLines (s : State) : Prop := lineLevels s.trace = (s.cs, s.rst)

/-- The arcs of the transition table that a step of the block takes (rule R172): from, to, and the
port actions on the arc. The arcs of the host's offers are not among them. -/
def stepArcs : List (Phase × Phase × List ActKind) :=
  [(.iRsta, .iRstr, [.rsta]), (.iRstr, .iSel, [.rstr]), (.iSel, .iDrain, [.sel]),
   (.iDrain, .iDrain, [.sample true, .rd]), (.iDrain, .fault, [.sample true, .rd]),
   (.iDrain, .iCheck, [.sample false]), (.iCheck, .idle, []), (.iCheck, .fault, [])] ++
  [(.xPad, .xDesel1, []), (.xDesel1, .xSel1, [.desel]), (.xSel1, .xTx, [.sel]),
   (.xTx, .xTx, [.xchg]), (.xTx, .xDesel2, [.xchg]), (.xDesel2, .xSel2, [.desel]),
   (.xSel2, .xWait1, [.sel])] ++
  [(.xWait1, .xRx, [.sample true]), (.xWait1, .xWait1, [.sample false]),
   (.xWait1, .fault, [.sample false]), (.xRx, .xRx, [.sample true, .rd]),
   (.xRx, .fault, [.sample true, .rd]), (.xRx, .xDesel3, [.sample false]),
   (.xDesel3, .xWait2, [.desel])] ++
  [(.xWait2, .xClean, [.sample true]), (.xWait2, .xWait2, [.sample false]),
   (.xWait2, .fault, [.sample false]), (.xClean, .idle, [])]

/-- `k` steps from `s` lead to `t`, none of them a stop. -/
def Reaches (k : Nat) (s t : State) : Prop := Host.Core.run Sys2Proof.core k s = .next t

/-- Two states that differ at most in the units the exchanges still to come return. -/
def SameButTxrx (s t : State) : Prop :=
  t = { s with env := { s.env with txrx := t.env.txrx } } ∧
    t.env.txrx.length = s.env.txrx.length

/-- The port trace of one EXEC that sends `us`, waits for `p` and `q` samples that read 0, and reads
`m` units (rule R152). -/
def execTrace (padByte : Byte) (us : List XUnit) (p m q : Nat) : List TraceItem :=
  [.desel, .sel] ++ us.map .xchg ++ [.desel, .sel] ++
  List.replicate p (.sample false) ++ [.sample true] ++
  (List.replicate m [.sample true, .rd padByte]).flatten ++ [.sample false] ++ [.desel] ++
  List.replicate q (.sample false) ++ [.sample true]

/-- The port trace of one INIT that reads `m` units (rule R151). -/
def initTrace (padByte : Byte) (m : Nat) : List TraceItem :=
  [.rsta, .rstr, .sel] ++ (List.replicate m [.sample true, .rd padByte]).flatten ++
  [.sample false]

/-- The samples of one EXEC in the order drawn (rule R152). -/
def execSamples (p m q : Nat) : List Bool :=
  List.replicate p false ++ [true] ++ List.replicate m true ++ [false] ++
  List.replicate q false ++ [true]

/-- The number of steps of an EXEC of a command of length `n`, without the offer (rule R243). -/
def execSteps (n p m q : Nat) : Nat :=
  1 + 2 + (n / 2 + 1) + 2 + (p + 1) + (m + 1) + 1 + (q + 1) + 1

/-- The number of steps of an INIT, without the offer (rule R243). -/
def initSteps (m : Nat) : Nat := 3 + (m + 1) + 1

end Sys2Proof.Machine
end

