-- ==== Sys2Proof/Certificates/Slice0/Obligations.lean ====
section
/-! DEFINITION. The statements for the provers. Where a statement rests on a decision of
`92_eei_decisions.md` or on a choice of the model, its docstring says so. In all of them the fields
`inbox`, `env`, `trace`, `result`, `reply`, `polls` and `raised` are the model's own record of the host
and the module (assumptions 2, 3, 7, 9, 11, 13, 25). -/

open Sys2Proof Sys2Proof.Machine

/-! ## Stepping, decoding, reset -/

/-- A step runs the operation its fetched word decodes to, and what is fetched is the first event of
the inbox, or the word of `PHASE` (10 R38; the inbox is the model's, assumption 3). -/
def Obligations.StepRunsTheDecodedOperation : Prop :=
  (∀ s t w i, fetch s = .word w t → decode w = .ok i → step s = exec i t) ∧
  (∀ s, s.inbox = [] → fetch s = .word [0x00, s.phase.code] s) ∧
  (∀ s rest, s.inbox = .run :: rest →
    fetch s = .word [0x00, s.phase.code] { s with inbox := rest }) ∧
  (∀ s w rest, s.inbox = .word w :: rest → fetch s = .word w { s with inbox := rest })

/-- The phase codes of 30 R88, each decoded to its row (D15), and words of the other formats, written
out from 30 R87, R89, R90, R83 and R84 (the leading format byte is the model's, assumption 4). -/
def Obligations.WordsDecodeToTheirRows : Prop :=
  [decode [0x00, 0], decode [0x00, 1], decode [0x00, 2], decode [0x00, 3], decode [0x00, 4],
    decode [0x00, 5], decode [0x00, 6], decode [0x00, 7], decode [0x00, 8], decode [0x00, 9]] =
    [.ok .sUninit, .ok .sIdle, .ok .sFault, .ok .sIRsta, .ok .sIRstr, .ok .sISel, .ok .sIDrain,
      .ok .sICheck, .ok .sXPad, .ok .sXDesel1] ∧
  [decode [0x00, 10], decode [0x00, 11], decode [0x00, 12], decode [0x00, 13], decode [0x00, 14],
    decode [0x00, 15], decode [0x00, 16], decode [0x00, 17], decode [0x00, 18]] =
    [.ok .sXSel1, .ok .sXTx, .ok .sXDesel2, .ok .sXSel2, .ok .sXWait1, .ok .sXRx, .ok .sXDesel3,
      .ok .sXWait2, .ok .sXClean] ∧
  [decode [0x01, 0], decode [0x01, 1, 0x41, 0x42], decode [0x02, 0], decode [0x02, 4],
    decode [0x02, 5, 0x42, 0x41], decode [0x02, 6], decode [0x0F, 2]] =
    [.ok .init, .ok (.exec [0x41, 0x42]), .ok .rsta, .ok .sample, .ok (.xchg ⟨0x42, 0x41⟩),
      .ok .rd, .ok .fTimeout] ∧
  decode [0x07, 0x0A, 0x0D] = .ok (.swap ⟨0x0A, 0x0D⟩) ∧
  decode [0x06, 0x00, 0x41, 0x42] = .ok (.pack [0x41, 0x42] 0) ∧
  decode [0x04, 0, 0x41] = .error .parityMismatch

/-- Decoding the word of a well-formed operation gives it back, every operand at every value. -/
def Obligations.DecodeOfEncodeIsIdentity : Prop :=
  ∀ i : Instr, i.wf = true → decode (encode i) = .ok i

/-- Each word has at most one meaning: what decodes is well formed and encodes back to the word. -/
def Obligations.EncodeOfDecodeIsIdentity : Prop :=
  ∀ (w : Bytes) (i : Instr), decode w = .ok i → i.wf = true ∧ encode i = w

/-- The state after reset (10 R53; every value is the spec's own choice, decision D18). -/
def Obligations.ResetValues : Prop :=
  State.reset.phase = .uninit ∧ State.reset.cmd = [] ∧ State.reset.txbuf = [] ∧
  State.reset.raw = [] ∧ State.reset.resp = [] ∧ State.reset.txi = 0 ∧ State.reset.cs = false ∧
  State.reset.rst = false ∧ State.reset.initOk = false ∧ State.reset.err = false ∧
  State.reset.errcode = 0 ∧ State.reset.done = false ∧ State.reset.tocnt = 0

/-- Block reset from any state (70 R220, decision D18): the reset values, no port action; the module sees
the lines that stood at 1 fall (10 R30). That the parameters, the pending events, the draws and the past
trace stay, and that the falls are one item, is the model's (assumption 15). -/
def Obligations.BlockResetFromAnyState : Prop :=
  (∀ s rest, s.inbox = .blockReset :: rest → s.cs = false → s.rst = false →
    step s = .next { State.reset with
      cfg := s.cfg, inbox := rest, env := s.env, trace := s.trace }) ∧
  (∀ s rest, s.inbox = .blockReset :: rest → s.cs = true ∨ s.rst = true →
    step s = .next { State.reset with
      cfg := s.cfg, inbox := rest, env := s.env, trace := s.trace ++ [.fall s.cs s.rst] }) ∧
  (∀ s rest, s.inbox = .blockReset :: rest →
    ∃ t, step s = .next t ∧ portTrace t = portTrace s)

/-! ## Host operations -/

/-- INIT is accepted in S_UNINIT and in S_IDLE, EXEC in S_IDLE if its command fits (43 R150,
decisions D14 and D24). -/
def Obligations.OffersAccepted : Prop :=
  (∀ s, s.phase = .uninit ∨ s.phase = .idle →
    exec .init s = .next { s with
      initOk := false, done := false, phase := .iRsta, reply := some .accepted }) ∧
  (∀ s c, s.phase = .idle → (∀ n, s.cfg.nCmdMax = some n → c.length ≤ n) →
    exec (.exec c) s = .next { s with
      cmd := c, done := false, phase := .xPad, reply := some .accepted })

/-- The four refusals in their order; nothing of the block changes (43 R150, 60 R194, decisions D12
and D14; that a refusal is a next state with a reply is the model's, assumption 7). -/
def Obligations.OffersRefusedInOrder : Prop :=
  (∀ s op, s.phase = .fault → op = .init ∨ (∃ c, op = .exec c) →
    exec op s = .next { s with reply := some (.refused .refFaulted) }) ∧
  (∀ s op, s.phase ≠ .uninit → s.phase ≠ .idle → s.phase ≠ .fault →
    op = .init ∨ (∃ c, op = .exec c) →
    exec op s = .next { s with reply := some (.refused .refBusy) }) ∧
  (∀ s c, s.phase = .uninit →
    exec (.exec c) s = .next { s with reply := some (.refused .refUninit) }) ∧
  (∀ s c n, s.phase = .idle → s.cfg.nCmdMax = some n → n < c.length →
    exec (.exec c) s = .next { s with reply := some (.refused .refTooLong) })

/-- The host reads the flags and `BUSY` at any time, and `RESP` as it stands (60 R208, 10 R36); what `RESP`
holds while the block is busy is `ResponseIsStaleUntilTheEnd`. -/
def Obligations.HostReads : Prop :=
  ∀ s, (hostStatus s).initOk = s.initOk ∧ (hostStatus s).err = s.err ∧
    (hostStatus s).errcode = s.errcode ∧ (hostStatus s).done = s.done ∧
    ((hostStatus s).busy = false ↔ s.phase = .uninit ∨ s.phase = .idle ∨ s.phase = .fault) ∧
    hostResp s = s.resp

/-- 70 R237 (decisions D14, D17, D20): a host that reads early gets the previous result. While the block
stays busy no step changes what the host reads; the step that ends INIT, completed or with F_INIT, or EXEC
brings the result; a timeout or an overflow leaves the previous result. -/
def Obligations.ResponseIsStaleUntilTheEnd : Prop :=
  ∀ s t, (∀ e ∈ s.inbox, e.hostLegal = true) → s.inbox.head? ≠ some .blockReset →
    step s = .next t →
    ((hostStatus t).busy = true → hostResp t = hostResp s) ∧
    (t.phase = .fault → t.errcode = 2 ∨ t.errcode = 3 → hostResp t = hostResp s) ∧
    (s.phase ≠ .idle → t.phase = .idle →
      (s.phase = .iCheck ∧ hostResp t = s.cfg.idlePrompt) ∨
      (s.phase = .xClean ∧ hostResp t = cleanRaw s.cfg s.raw)) ∧
    (s.phase = .iCheck → t.phase = .fault → hostResp t = trimI s.cfg s.raw)

/-! ## Resting and reserved phases -/

/-- The resting phases write nothing and do nothing on the port (43 R153 to R155). That the block's
rest is a step that changes nothing is the model's (assumption 8). -/
def Obligations.RestingPhasesWriteNothing : Prop :=
  ∀ s, exec .sUninit s = .next s ∧ exec .sIdle s = .next s ∧ exec .sFault s = .next s

/-- Reserved codes have no step (30 R93, 43 R175, decisions D15 and D16; a stop with a name of its
own is the model's, assumption 10). -/
def Obligations.ReservedCodesAreStuck : Prop :=
  (∀ s, exec .phaseReserved19 s = .fault (.stuckReservedPhase 19)) ∧
  (∀ s pp, exec (.phaseReserved20 pp) s = .fault (.stuckReservedPhase (0b101#3 ++ pp))) ∧
  (∀ s ppp, exec (.phaseReserved24 ppp) s = .fault (.stuckReservedPhase (0b11#2 ++ ppp))) ∧
  (∀ s, exec .primReserved s = .fault .stuckReservedPrimitive) ∧
  (∀ s k, s.inbox = [] → s.phase = .reserved k →
    step s = .fault (.stuckReservedPhase (BitVec.ofNat 5 (19 + k.val))))

/-! ## INIT phases -/

/-- 43 R156 and R157: assert, then release, the reset line; nothing else but `PHASE` is written. -/
def Obligations.ResetLinePhases : Prop :=
  ∀ s, exec .sIRsta s = .next { s with
      rst := true, trace := s.trace ++ [.rsta], phase := .iRstr } ∧
    exec .sIRstr s = .next { s with
      rst := false, trace := s.trace ++ [.rstr], phase := .iSel }

/-- 43 R158: select and empty the accumulator. -/
def Obligations.InitSelectPhase : Prop :=
  ∀ s, exec .sISel s = .next { s with
    cs := true, trace := s.trace ++ [.sel], raw := [], phase := .iDrain }

/-- 43 R159 (decisions D8 and D10): one turn of the drain. `m` is the state after the sample. A kept
unit over `N_RAW_MAX` is read and lost and the fault entry taken (60 R193, decisions D12, D17). -/
def Obligations.DrainTurn : Prop :=
  ∀ s m : State,
    m = { s with env := dropBit s.env, trace := s.trace ++ [.sample (nextBit s)] } →
    (nextBit s = false → exec .sIDrain s = .next { m with phase := .iCheck }) ∧
    (nextBit s = true → (nextRx m = ⟨s.cfg.idleByte, s.cfg.idleByte⟩) →
      exec .sIDrain s = .next { m with
        env := dropRx m.env, trace := m.trace ++ [.rd s.cfg.padByte], phase := .iDrain }) ∧
    (nextBit s = true → (nextRx m ≠ ⟨s.cfg.idleByte, s.cfg.idleByte⟩) →
      (∀ n, s.cfg.nRawMax = some n → s.raw.length + 2 ≤ n) →
      exec .sIDrain s = .next { m with
        env := dropRx m.env, trace := m.trace ++ [.rd s.cfg.padByte],
        raw := s.raw ++ [(nextRx m).second, (nextRx m).first], phase := .iDrain }) ∧
    (∀ n, nextBit s = true → (nextRx m ≠ ⟨s.cfg.idleByte, s.cfg.idleByte⟩) →
      s.cfg.nRawMax = some n → n < s.raw.length + 2 →
      exec .sIDrain s = .next { m with
        env := dropRx m.env, trace := m.trace ++ [.rd s.cfg.padByte], err := true, errcode := 3,
        phase := .fault, raised := some ⟨.fOverflow, .iDrain⟩ })

/-- 43 R168: one turn of the receive loop. `m` is the state after the sample. A kept unit over
`N_RAW_MAX` is read and lost and the fault entry taken (60 R193, R198, decisions D12, D17). -/
def Obligations.ReceiveTurn : Prop :=
  ∀ s m : State,
    m = { s with env := dropBit s.env, trace := s.trace ++ [.sample (nextBit s)] } →
    (nextBit s = false → exec .sXRx s = .next { m with phase := .xDesel3 }) ∧
    (nextBit s = true → (nextRx m = ⟨s.cfg.idleByte, s.cfg.idleByte⟩) →
      exec .sXRx s = .next { m with
        env := dropRx m.env, trace := m.trace ++ [.rd s.cfg.padByte], phase := .xRx }) ∧
    (nextBit s = true → (nextRx m ≠ ⟨s.cfg.idleByte, s.cfg.idleByte⟩) →
      (∀ n, s.cfg.nRawMax = some n → s.raw.length + 2 ≤ n) →
      exec .sXRx s = .next { m with
        env := dropRx m.env, trace := m.trace ++ [.rd s.cfg.padByte],
        raw := s.raw ++ [(nextRx m).second, (nextRx m).first], phase := .xRx }) ∧
    (∀ n, nextBit s = true → (nextRx m ≠ ⟨s.cfg.idleByte, s.cfg.idleByte⟩) →
      s.cfg.nRawMax = some n → n < s.raw.length + 2 →
      exec .sXRx s = .next { m with
        env := dropRx m.env, trace := m.trace ++ [.rd s.cfg.padByte], err := true, errcode := 3,
        phase := .fault, raised := some ⟨.fOverflow, .xRx⟩ })

/-- 43 R160 (decision D20): `RESP` holds the drained content in both outcomes; content that is
`IDLE_PROMPT` ends the INIT, anything else raises F_INIT (60 R191, decision D17). -/
def Obligations.CheckPhase : Prop :=
  (∀ s, trimI s.cfg s.raw = s.cfg.idlePrompt →
    exec .sICheck s = .next { s with
      resp := s.cfg.idlePrompt, initOk := true, done := true, phase := .idle }) ∧
  (∀ s, trimI s.cfg s.raw ≠ s.cfg.idlePrompt →
    exec .sICheck s = .next { s with
      resp := trimI s.cfg s.raw, err := true, errcode := 1, phase := .fault,
      raised := some ⟨.fInit, .iCheck⟩ })

/-- 41 R117, a derived corner case: a binding whose `IDLE_PROMPT` ends in `IDLE_BYTE` never
matches. -/
def Obligations.PromptEndingInIdleNeverMatches : Prop :=
  ∀ s, s.cfg.idlePrompt.getLast? = some s.cfg.idleByte →
    ∃ t, exec .sICheck s = .next t ∧ t.phase = .fault ∧ t.errcode = 1 ∧ t.initOk = s.initOk

/-! ## EXEC phases -/

/-- 43 R161: the frame is the command and the terminator its length's parity selects. -/
def Obligations.PadPhase : Prop :=
  ∀ s, exec .sXPad s = .next { s with
    txbuf := if s.cmd.length % 2 = 0 then s.cmd ++ [0x0D, 0x0A] else s.cmd ++ [0x0D],
    txi := 0, raw := [], phase := .xDesel1 }

/-- 43 R162, R163 and R165: the line writes of the two handshakes, whatever the level of `CS` was; the
second deselect always finds it at 1. -/
def Obligations.HandshakePhases : Prop :=
  (∀ s, BlockInv s → s.phase = .xDesel2 → s.cs = true) ∧
  ∀ s, exec .sXDesel1 s = .next { s with
      cs := false, trace := s.trace ++ [.desel], phase := .xSel1 } ∧
    exec .sXSel1 s = .next { s with
      cs := true, trace := s.trace ++ [.sel], phase := .xTx } ∧
    exec .sXDesel2 s = .next { s with
      cs := false, trace := s.trace ++ [.desel], phase := .xSel2 }

/-- 43 R166 and R169: the line writes that enter a busy-wait; `TOCNT` is cleared when present. That its
holder stays as it was when `TIMEOUT_POLLS` is `INF` is the model's reading (assumption 16). -/
def Obligations.PhasesThatEnterAWait : Prop :=
  ∀ s, (s.cfg.timeoutPolls = none →
      exec .sXSel2 s = .next { s with
        cs := true, trace := s.trace ++ [.sel], phase := .xWait1 } ∧
      exec .sXDesel3 s = .next { s with
        cs := false, trace := s.trace ++ [.desel], phase := .xWait2 }) ∧
    (∀ n, s.cfg.timeoutPolls = some n →
      exec .sXSel2 s = .next { s with
        cs := true, trace := s.trace ++ [.sel], tocnt := 0, phase := .xWait1 } ∧
      exec .sXDesel3 s = .next { s with
        cs := false, trace := s.trace ++ [.desel], tocnt := 0, phase := .xWait2 })

/-- From 43 R164 and 40 R101: one word of `TXBUF`, the later character first; the returned unit reaches
nothing; a frame has at least one word. For a `TXBUF` of odd length, which no run reaches and which is outside R101's
precondition, the unit sent is the model's choice (assumption 14). -/
def Obligations.TransmitPhase : Prop :=
  (∀ c : Bytes, 2 ≤ (pad c).length) ∧
  ∀ s a b, s.txbuf[2 * s.txi]? = some a → s.txbuf[2 * s.txi + 1]? = some b →
    (s.txi + 1 = s.txbuf.length / 2 → exec .sXTx s = .next { s with
      txi := s.txi + 1, env := dropTxrx s.env, trace := s.trace ++ [.xchg ⟨b, a⟩],
      phase := .xDesel2 }) ∧
    (s.txi + 1 ≠ s.txbuf.length / 2 → exec .sXTx s = .next { s with
      txi := s.txi + 1, env := dropTxrx s.env, trace := s.trace ++ [.xchg ⟨b, a⟩],
      phase := .xTx })

/-- 43 R167 and R170: one turn of each busy-wait, selected in the first and deselected in the second.
`m` is the state after the sample. The timeout takes the fault entry of F_TIMEOUT (60 R192, R198, 30 R90,
decisions D13, D17); that the holder of `TOCNT` stays when `TIMEOUT_POLLS` is `INF` is the model's
reading (assumption 16). -/
def Obligations.WaitTurns : Prop :=
  (∀ s, BlockInv s → (s.phase = .xWait1 → s.cs = true) ∧ (s.phase = .xWait2 → s.cs = false)) ∧
  ∀ s m : State,
    m = { s with env := dropBit s.env, trace := s.trace ++ [.sample (nextBit s)] } →
    (nextBit s = true →
      exec .sXWait1 s = .next { m with phase := .xRx } ∧
      exec .sXWait2 s = .next { m with phase := .xClean }) ∧
    (nextBit s = false → s.cfg.timeoutPolls = none →
      exec .sXWait1 s = .next { m with phase := .xWait1 } ∧
      exec .sXWait2 s = .next { m with phase := .xWait2 }) ∧
    (∀ n, nextBit s = false → s.cfg.timeoutPolls = some n → s.tocnt + 1 ≠ n →
      exec .sXWait1 s = .next { m with tocnt := s.tocnt + 1, phase := .xWait1 } ∧
      exec .sXWait2 s = .next { m with tocnt := s.tocnt + 1, phase := .xWait2 }) ∧
    (∀ n, nextBit s = false → s.cfg.timeoutPolls = some n → s.tocnt + 1 = n →
      exec .sXWait1 s = .next { m with
        err := true, errcode := 2, phase := .fault, raised := some ⟨.fTimeout, .xWait1⟩ } ∧
      exec .sXWait2 s = .next { m with
        err := true, errcode := 2, phase := .fault, raised := some ⟨.fTimeout, .xWait2⟩ })

/-- 43 R171: `RESP` is the cleaned `RAW`, the operation is done. -/
def Obligations.CleanPhase : Prop :=
  ∀ s, exec .sXClean s = .next { s with
    resp := cleanRaw s.cfg s.raw, done := true, phase := .idle }

/-! ## Transport primitives and composites -/

/-- 42 R130 to R133: each line primitive writes its line and nothing else of the block. -/
def Obligations.LinePrimitives : Prop :=
  ∀ s, exec .rsta s = .next { s with rst := true, trace := s.trace ++ [.rsta] } ∧
    exec .rstr s = .next { s with rst := false, trace := s.trace ++ [.rstr] } ∧
    exec .sel s = .next { s with cs := true, trace := s.trace ++ [.sel] } ∧
    exec .desel s = .next { s with cs := false, trace := s.trace ++ [.desel] }

/-- 42 R134 to R136: a sample, an exchange and a read write nothing of the block; the drawn value is
delivered in the model's own `result` (assumption 11), from the listed draws or a free value
(assumption 2). -/
def Obligations.DataPrimitives : Prop :=
  (∀ s d ds, s.env.d = d :: ds → exec .sample s = .next { s with
    env := { s.env with d := ds }, trace := s.trace ++ [.sample d], result := .bit d }) ∧
  (∀ s u w ws, s.env.txrx = w :: ws → exec (.xchg u) s = .next { s with
    env := { s.env with txrx := ws }, trace := s.trace ++ [.xchg u], result := .unit w }) ∧
  (∀ s w ws, s.env.rx = w :: ws → exec .rd s = .next { s with
    env := { s.env with rx := ws }, trace := s.trace ++ [.rd s.cfg.padByte],
    result := .unit w }) ∧
  (∀ s, s.env.d = [] → ∃ d, exec .sample s = .next { s with
    env := { s.env with drawn := s.env.drawn + 1 }, trace := s.trace ++ [.sample d],
    result := .bit d }) ∧
  (∀ s u, s.env.txrx = [] → ∃ w, exec (.xchg u) s = .next { s with
    env := { s.env with drawn := s.env.drawn + 1 }, trace := s.trace ++ [.xchg u],
    result := .unit w }) ∧
  (∀ s, s.env.rx = [] → ∃ w, exec .rd s = .next { s with
    env := { s.env with drawn := s.env.drawn + 1 },
    trace := s.trace ++ [.rd s.cfg.padByte], result := .unit w })

/-- 42 R137 and R138: the module hard reset and the handshake, each in the order of its rule (each
in one step here, assumption 12). -/
def Obligations.ResetAndToggle : Prop :=
  ∀ s, exec .hardReset s = .next { s with
      rst := false, trace := s.trace ++ [.rsta, .rstr] } ∧
    exec .toggle s = .next { s with cs := true, trace := s.trace ++ [.desel, .sel] }

/-- 42 R139 (decisions D13, D17): one turn of WAITRDY. That it presents itself again is the model's
(assumption 12); so is that it counts in `polls`, from 0, and leaves `TOCNT` alone, and that the `info` of
its F_TIMEOUT is the current phase (assumption 25). -/
def Obligations.WaitReadyTurn : Prop :=
  ∀ s m : State,
    m = { s with env := dropBit s.env, trace := s.trace ++ [.sample (nextBit s)] } →
    (nextBit s = true → exec .waitrdy s = .next { m with result := .bit true, polls := 0 }) ∧
    (nextBit s = false → s.cfg.timeoutPolls = none →
      exec .waitrdy s = .next { m with inbox := .word [0x03, 2] :: s.inbox }) ∧
    (∀ n, nextBit s = false → s.cfg.timeoutPolls = some n → s.polls + 1 ≠ n →
      exec .waitrdy s = .next { m with
        polls := s.polls + 1, inbox := .word [0x03, 2] :: s.inbox }) ∧
    (∀ n, nextBit s = false → s.cfg.timeoutPolls = some n → s.polls + 1 = n →
      exec .waitrdy s = .next { m with
        polls := 0, err := true, errcode := 2, phase := .fault,
        raised := some ⟨.fTimeout, s.phase⟩ })

/-- 42 R139, 60 R192 (decisions D13, D17): a WAITRDY presented by itself faults at the `n`-th consecutive
sample that reads 0, whatever `TOCNT` holds, and not before (presenting itself again: assumption 12; its
own count: assumption 25). -/
def Obligations.WaitReadyFaultsAtItsPolls : Prop :=
  ∀ s n ds rest, s.inbox = .word [0x03, 2] :: rest → s.polls = 0 →
    s.cfg.timeoutPolls = some n → s.env.d = List.replicate n false ++ ds →
    (∀ j, j < n → Reaches j s { s with
      polls := j, env := { s.env with d := List.replicate (n - j) false ++ ds },
      trace := s.trace ++ List.replicate j (.sample false) }) ∧
    Reaches n s { s with
      inbox := rest, env := { s.env with d := ds },
      trace := s.trace ++ List.replicate n (.sample false),
      err := true, errcode := 2, phase := .fault, raised := some ⟨.fTimeout, s.phase⟩ }

/-! ## The framer -/

/-- 40 R100: PAD by parity, the two rows of the table. -/
def Obligations.PadRows : Prop :=
  (∀ s c, c.length % 2 = 0 →
    exec (.padEven c) s = .next { s with result := .bytes (c ++ [0x0D, 0x0A]) } ∧
    pad c = c ++ [0x0D, 0x0A]) ∧
  (∀ s c, c.length % 2 = 1 →
    exec (.padOdd c) s = .next { s with result := .bytes (c ++ [0x0D]) } ∧
    pad c = c ++ [0x0D])

/-- 40 R103, the evenness law (derived from R100). -/
def Obligations.EvennessLaw : Prop :=
  ∀ c : Bytes, (pad c).length % 2 = 0 ∧ 2 ≤ (pad c).length ∧ (pad c).take c.length = c ∧
    (pad c).drop c.length = (if c.length % 2 = 0 then [0x0D, 0x0A] else [0x0D])

/-- 40 R101: the later character of the pair first, for every index inside the frame. -/
def Obligations.PackRow : Prop :=
  ∀ s f k, (Instr.pack f k).wf = true → ∃ a b, f[2 * k]? = some a ∧ f[2 * k + 1]? = some b ∧
    exec (.pack f k) s = .next { s with result := .unit ⟨b, a⟩ }

/-- 40 R102: `floor(n/2) + 1` units in ascending index, which swapped back and joined are the padded
command. -/
def Obligations.FrameRow : Prop :=
  ∀ s c, ∃ us : List XUnit, exec (.frame c) s = .next { s with result := .units us } ∧
    us.length = c.length / 2 + 1 ∧
    us.flatMap (fun u => [u.second, u.first]) =
      (if c.length % 2 = 0 then c ++ [0x0D, 0x0A] else c ++ [0x0D])

/-! ## The cleaner -/

/-- 41 R110 and R111: SWAP exchanges the lanes; FILT drops the idle unit and no other. -/
def Obligations.SwapAndFilterRows : Prop :=
  (∀ s r0 r1, exec (.swap ⟨r0, r1⟩) s = .next { s with result := .unit ⟨r1, r0⟩ }) ∧
  (∀ s, exec (.filt ⟨s.cfg.idleByte, s.cfg.idleByte⟩) s =
    .next { s with result := .kept false }) ∧
  (∀ s u, (u.first ≠ s.cfg.idleByte ∨ u.second ≠ s.cfg.idleByte) →
    exec (.filt u) s = .next { s with result := .kept true })

/-- 41 R112: one unit accumulated. -/
def Obligations.AccumulateRow : Prop :=
  (∀ s raw, exec (.acc raw ⟨s.cfg.idleByte, s.cfg.idleByte⟩) s =
    .next { s with result := .bytes raw }) ∧
  (∀ s raw w, w ≠ ⟨s.cfg.idleByte, s.cfg.idleByte⟩ →
    exec (.acc raw w) s = .next { s with result := .bytes (raw ++ [w.second, w.first]) })

/-- 41 R112, over a whole receive phase: the kept units, each swapped, in order; idle units are
dropped wherever they stand. -/
def Obligations.AccumulatorIsTheKeptUnits : Prop :=
  ∀ (p : Params) (ws : List XUnit),
    accAll p ws =
      (ws.filter (fun w => decide (w ≠ ⟨p.idleByte, p.idleByte⟩))).flatMap
        (fun w => [w.second, w.first]) ∧
    (accAll p ws).length =
      2 * (ws.filter (fun w => decide (w ≠ ⟨p.idleByte, p.idleByte⟩))).length

/-- 41 R113: TRIMI removes a run of idle bytes at the tail, all of it and nothing else. -/
def Obligations.TrimIdleRow : Prop :=
  ∀ s t n, t.getLast? ≠ some s.cfg.idleByte →
    exec (.trimi (t ++ List.replicate n s.cfg.idleByte)) s =
      .next { s with result := .bytes t }

/-- 41 R114: TRIMH removes exactly one leading line terminator and nothing that resembles one. -/
def Obligations.TrimHeadRow : Prop :=
  (∀ s r, exec (.trimh (0x0D :: 0x0A :: r)) s = .next { s with result := .bytes r }) ∧
  (∀ s b, b.take 2 ≠ [0x0D, 0x0A] → exec (.trimh b) s = .next { s with result := .bytes b })

/-- 41 R115: TRIMP removes exactly one trailing prompt suffix and leaves a partial match alone. -/
def Obligations.TrimPromptRow : Prop :=
  (∀ s t, exec (.trimp (t ++ s.cfg.suffix)) s = .next { s with result := .bytes t }) ∧
  (∀ s b, (b.length < 8 ∨ b.drop (b.length - 8) ≠ s.cfg.suffix) →
    exec (.trimp b) s = .next { s with result := .bytes b })

/-- 41 R116: CLEAN on the shape it is built for, an optional head terminator, a payload, the prompt
suffix and a run of idle bytes, leaves the payload. -/
def Obligations.CleanRow : Prop :=
  (∀ s payload n, s.cfg.suffix.getLast? ≠ some s.cfg.idleByte →
    exec (.clean ([0x0D, 0x0A] ++ payload ++ s.cfg.suffix ++
      List.replicate n s.cfg.idleByte)) s = .next { s with result := .bytes payload }) ∧
  (∀ s payload n, s.cfg.suffix.getLast? ≠ some s.cfg.idleByte →
    (payload ++ s.cfg.suffix).take 2 ≠ [0x0D, 0x0A] →
    exec (.clean (payload ++ s.cfg.suffix ++ List.replicate n s.cfg.idleByte)) s =
      .next { s with result := .bytes payload }) ∧
  (∀ s raw, exec (.clean raw) s =
    .next { s with result := .bytes (trimP s.cfg (trimH (trimI s.cfg raw))) })

/-- 41 R116 corner case c (derived; 90 C4): where the suffix begins with the line terminator, a
response that is the bare suffix keeps its last six bytes. -/
def Obligations.BarePromptOverlap : Prop :=
  ∀ (p : Params) (six : Bytes), p.suffix = [0x0D, 0x0A] ++ six →
    six.getLast? ≠ some p.idleByte →
    cleanRaw p p.suffix = six ∧ six.length = 6

/-- 41 R118, the laws of the cleaner (derived there): a wire of idle units cleans to the empty string,
the two one-shot trims are exact on every string, and CLEAN only removes from the two ends. -/
def Obligations.CleanerLaws : Prop :=
  (∀ (p : Params) (k : Nat),
    cleanRaw p (accAll p (List.replicate k ⟨p.idleByte, p.idleByte⟩)) = [] ∧
    cleanRaw p (List.replicate k p.idleByte) = []) ∧
  (∀ b : Bytes, trimH b = if b.take 2 = [0x0D, 0x0A] then b.drop 2 else b) ∧
  (∀ (p : Params) (b : Bytes), trimP p b =
    if 8 ≤ b.length ∧ b.drop (b.length - 8) = p.suffix then b.take (b.length - 8) else b) ∧
  (∀ (p : Params) (raw : Bytes), ∃ head tail, raw = head ++ cleanRaw p raw ++ tail)

/-- 41 R117 (decision D8): CHECK trims idle bytes only and compares the whole string. -/
def Obligations.CheckRow : Prop :=
  ∀ s t n, t.getLast? ≠ some s.cfg.idleByte →
    exec (.check (t ++ List.replicate n s.cfg.idleByte)) s =
      .next { s with result := .checked t (decide (t = s.cfg.idlePrompt)) }

/-! ## Fault codes -/

/-- 30 R90 and 60 R198 (decisions D12, D13, D17): raising a fault is its entry, which writes `ERR`,
`ERRCODE` and `PHASE` and nothing else of the block; code 0 raises nothing, and codes 2 and 3 raise
nothing where their bound is `INF` (the rows as operations: assumption 21; `raised`: assumption 9). -/
def Obligations.FaultCodeRows : Prop :=
  ∀ s, exec .errNone s = .next s ∧
    exec .fInit s = .next { s with
      err := true, errcode := 1, phase := .fault, raised := some ⟨.fInit, s.phase⟩ } ∧
    (∀ n, s.cfg.timeoutPolls = some n → exec .fTimeout s = .next { s with
      err := true, errcode := 2, phase := .fault, raised := some ⟨.fTimeout, s.phase⟩ }) ∧
    (s.cfg.timeoutPolls = none → exec .fTimeout s = .next s) ∧
    (∀ n, s.cfg.nRawMax = some n → exec .fOverflow s = .next { s with
      err := true, errcode := 3, phase := .fault, raised := some ⟨.fOverflow, s.phase⟩ }) ∧
    (s.cfg.nRawMax = none → exec .fOverflow s = .next s)

/-! ## Whole-machine rules -/

/-- The invariant holds after reset (10 R53, decision D18), and the empty trace shows both lines at 0. -/
def Obligations.ResetMeetsTheInvariant : Prop :=
  BlockInv State.reset ∧ TraceShowsLines State.reset

/-- Every step keeps the invariant, from every state that meets it. The trace goes on showing every
change of `CS` and `RST` (10 R30), whatever is presented to the machine: no step and no block reset
changes a line unseen (`trace` is the model's record, assumptions 13 and 15). -/
def Obligations.StepKeepsTheInvariant : Prop :=
  (∀ s t, BlockInv s → step s = .next t → BlockInv t) ∧
  (∀ s t, TraceShowsLines s → step s = .next t → TraceShowsLines t)

/-- From every state that meets the invariant the machine has a next state: no stop is reached. -/
def Obligations.InvariantStatesNeverStop : Prop :=
  ∀ s, BlockInv s → ∃ t, step s = .next t

/-- 43 R172: with nothing pending from outside, a step of a phase that does not rest takes an arc of
the transition table and performs the arc's port actions. -/
def Obligations.StepsTakeTableArcs : Prop :=
  ∀ s, s.inbox = [] → s.phase ≠ .uninit → s.phase ≠ .idle → s.phase ≠ .fault →
    (∀ k, s.phase ≠ .reserved k) →
    ∃ t acts, step s = .next t ∧ t.trace = s.trace ++ acts ∧
      (s.phase, t.phase, acts.map TraceItem.kind) ∈ stepArcs

/-- 43 R173 (a) (derived): a unit is transferred only while the module is selected and not held in
reset. -/
def Obligations.TransfersOnlyWhileSelected : Prop :=
  ∀ s t acts, BlockInv s → step s = .next t → t.trace = s.trace ++ acts →
    (.xchg ∈ acts.map TraceItem.kind ∨ .rd ∈ acts.map TraceItem.kind) →
    s.cs = true ∧ s.rst = false ∧ t.cs = true ∧ t.rst = false

/-- 43 R173 (d) (derived): the block comes to rest in S_IDLE selected after INIT and deselected after
EXEC. -/
def Obligations.ChipSelectAtRest : Prop :=
  ∀ s t, BlockInv s → step s = .next t → s.phase ≠ .idle → t.phase = .idle →
    (s.phase = .iCheck ∧ t.cs = true ∧ t.rst = false ∧ t.resp = s.cfg.idlePrompt) ∨
    (s.phase = .xClean ∧ t.cs = false ∧ t.rst = false ∧ t.initOk = true)

/-- 60 R199 (decision D17): S_FAULT is left only by block reset; every other step changes nothing of
the block. -/
def Obligations.FaultPhaseIsAbsorbing : Prop :=
  (∀ s, s.phase = .fault → (∀ e ∈ s.inbox, e.hostLegal = true) →
    s.inbox.head? ≠ some .blockReset →
    ∃ r, step s = .next { s with inbox := s.inbox.tail, reply := r }) ∧
  (∀ s rest, s.phase = .fault → s.inbox = .blockReset :: rest →
    ∃ t, step s = .next t ∧ t.phase = .uninit ∧ t.err = false ∧ t.errcode = 0 ∧
      portTrace t = portTrace s)

/-- 60 R190 and R197: which phase raises which fault, and no other step reaches S_FAULT (decisions
D12, D13 and D17). -/
def Obligations.FaultsHaveTheirPhases : Prop :=
  ∀ s t, (∀ e ∈ s.inbox, e.hostLegal = true) → step s = .next t →
    s.phase ≠ .fault → t.phase = .fault →
    t.err = true ∧
    ((s.phase = .iCheck ∧ t.errcode = 1 ∧ t.raised = some ⟨.fInit, .iCheck⟩) ∨
     ((s.phase = .xWait1 ∨ s.phase = .xWait2) ∧ t.errcode = 2 ∧
       s.cfg.timeoutPolls = some (s.tocnt + 1) ∧ t.raised = some ⟨.fTimeout, s.phase⟩) ∨
     ((s.phase = .iDrain ∨ s.phase = .xRx) ∧ t.errcode = 3 ∧ s.cfg.nRawMax ≠ none ∧
       t.raised = some ⟨.fOverflow, s.phase⟩))

/-- Who writes what (10 R32 to R36, R39, R40, R42 to R44, R47): without a block reset, an element other
than `PHASE` (whose arcs `StepsTakeTableArcs` states) changes only in a step from the phases its rule
names; `ERR` and `ERRCODE` only from those that fault (60 R190). -/
def Obligations.ElementsHaveTheirWriters : Prop :=
  ∀ s t, (∀ e ∈ s.inbox, e.hostLegal = true) → s.inbox.head? ≠ some .blockReset →
    step s = .next t →
    (t.cmd ≠ s.cmd → s.phase = .idle) ∧
    (t.txbuf ≠ s.txbuf → s.phase = .xPad) ∧
    (t.txi ≠ s.txi → s.phase = .xPad ∨ s.phase = .xTx) ∧
    (t.raw ≠ s.raw → s.phase = .iSel ∨ s.phase = .iDrain ∨ s.phase = .xPad ∨ s.phase = .xRx) ∧
    (t.resp ≠ s.resp → s.phase = .iCheck ∨ s.phase = .xClean) ∧
    (t.cs ≠ s.cs → s.phase = .iSel ∨ s.phase = .xDesel1 ∨ s.phase = .xSel1 ∨
      s.phase = .xDesel2 ∨ s.phase = .xSel2 ∨ s.phase = .xDesel3) ∧
    (t.rst ≠ s.rst → s.phase = .iRsta ∨ s.phase = .iRstr) ∧
    (t.initOk ≠ s.initOk → s.phase = .uninit ∨ s.phase = .idle ∨ s.phase = .iCheck) ∧
    (t.err ≠ s.err ∨ t.errcode ≠ s.errcode → s.phase = .iCheck ∨ s.phase = .iDrain ∨
      s.phase = .xRx ∨ s.phase = .xWait1 ∨ s.phase = .xWait2) ∧
    (t.done ≠ s.done → s.phase = .uninit ∨ s.phase = .idle ∨ s.phase = .iCheck ∨
      s.phase = .xClean) ∧
    (t.tocnt ≠ s.tocnt → s.phase = .xSel2 ∨ s.phase = .xDesel3 ∨ s.phase = .xWait1 ∨
      s.phase = .xWait2)

/-- 10 R48: no step writes a constant register, whatever is presented to the machine. -/
def Obligations.ParametersAreConstant : Prop :=
  ∀ s t, step s = .next t → t.cfg = s.cfg

/-- 10 R49, 43 R164 and 70 R229: what the module returns during transmission reaches nothing: two
states that differ only there take the same step and go on differing only there. -/
def Obligations.UnitsReturnedDuringTransmissionReachNothing : Prop :=
  ∀ s s' t, SameButTxrx s s' → (∀ e ∈ s.inbox, e.hostLegal = true) → step s = .next t →
    ∃ t', step s' = .next t' ∧ SameButTxrx t t'

/-- 70 R228 (a) and (b), 42 R139: with no timeout, a busy-wait lasts as long as the samples read 0, and
the first sample of 1 ends it. -/
def Obligations.WaitLastsWhileSamplesReadZero : Prop :=
  ∀ s k ds, s.inbox = [] → s.phase = .xWait1 ∨ s.phase = .xWait2 →
    s.cfg.timeoutPolls = none → s.env.d = List.replicate k false ++ ds →
    Reaches k s { s with
      env := { s.env with d := ds }, trace := s.trace ++ List.replicate k (.sample false) } ∧
    (∀ ds', ds = true :: ds' → Reaches (k + 1) s { s with
      phase := (if s.phase = .xWait1 then .xRx else .xClean), env := { s.env with d := ds' },
      trace := s.trace ++ List.replicate k (.sample false) ++ [.sample true] })

/-- 60 R192 (decision D13): with a timeout of `n` polls, the `n`-th consecutive sample that reads 0
faults, and none before it. -/
def Obligations.TimeoutAfterExactlyItsPolls : Prop :=
  ∀ s n ds, s.inbox = [] → s.phase = .xWait1 ∨ s.phase = .xWait2 → s.tocnt = 0 →
    s.cfg.timeoutPolls = some n → s.env.d = List.replicate n false ++ ds →
    (∀ j, j < n → Reaches j s { s with
      tocnt := j, env := { s.env with d := List.replicate (n - j) false ++ ds },
      trace := s.trace ++ List.replicate j (.sample false) }) ∧
    Reaches n s { s with
      tocnt := n - 1, env := { s.env with d := ds },
      trace := s.trace ++ List.replicate n (.sample false),
      err := true, errcode := 2, phase := .fault, raised := some ⟨.fTimeout, s.phase⟩ }

/-- 43 R151 and 70 R243 (decisions D8, D9, D10, D20): a whole INIT, from its offer, whose drained
content is the idle prompt. -/
def Obligations.WholeInitCompletes : Prop :=
  ∀ s ws ds us, s.phase = .uninit ∨ s.phase = .idle → s.inbox = [.word [0x01, 0]] →
    s.env.d = List.replicate ws.length true ++ false :: ds → s.env.rx = ws ++ us →
    (∀ n, s.cfg.nRawMax = some n → (accAll s.cfg ws).length ≤ n) →
    trimI s.cfg (accAll s.cfg ws) = s.cfg.idlePrompt →
    Reaches (1 + initSteps ws.length) s { s with
      phase := .idle, initOk := true, done := true, cs := true, rst := false,
      raw := accAll s.cfg ws, resp := s.cfg.idlePrompt, inbox := [], reply := some .accepted,
      env := { s.env with d := ds, rx := us },
      trace := s.trace ++ initTrace s.cfg.padByte ws.length }

/-- 43 R151 and 60 R191 (decisions D8, D9, D10, D17, D20): a whole INIT whose drained content is
anything else ends in S_FAULT with F_INIT. -/
def Obligations.WholeInitFails : Prop :=
  ∀ s ws ds us, s.phase = .uninit ∨ s.phase = .idle → s.inbox = [.word [0x01, 0]] →
    s.env.d = List.replicate ws.length true ++ false :: ds → s.env.rx = ws ++ us →
    (∀ n, s.cfg.nRawMax = some n → (accAll s.cfg ws).length ≤ n) →
    trimI s.cfg (accAll s.cfg ws) ≠ s.cfg.idlePrompt →
    Reaches (1 + initSteps ws.length) s { s with
      phase := .fault, err := true, errcode := 1, raised := some ⟨.fInit, .iCheck⟩,
      initOk := false, done := false, cs := true, rst := false,
      raw := accAll s.cfg ws, resp := trimI s.cfg (accAll s.cfg ws), inbox := [],
      reply := some .accepted, env := { s.env with d := ds, rx := us },
      trace := s.trace ++ initTrace s.cfg.padByte ws.length }

/-- 43 R152 and 70 R243: a whole EXEC, from its offer, for every command, every number of samples that
read 0 in the two waits and every list of units the module returns: the exact number of steps, the
exact port trace, and `RESP = CLEAN(ACCALL(ws))`. -/
def Obligations.WholeExecCompletes : Prop :=
  ∀ s c ws p q ds us, s.phase = .idle → s.inbox = [.word (0x01 :: 1 :: c)] →
    (∀ n, s.cfg.nCmdMax = some n → c.length ≤ n) →
    s.env.d = execSamples p ws.length q ++ ds → s.env.rx = ws ++ us →
    (∀ n, s.cfg.timeoutPolls = some n → p < n ∧ q < n) →
    (∀ n, s.cfg.nRawMax = some n → (accAll s.cfg ws).length ≤ n) →
    ∃ t e, Reaches (1 + execSteps c.length p ws.length q) s t ∧ e.d = ds ∧ e.rx = us ∧
      t = { s with
        cmd := c, txbuf := pad c, txi := c.length / 2 + 1, raw := accAll s.cfg ws,
        resp := cleanRaw s.cfg (accAll s.cfg ws), phase := .idle, cs := false, done := true,
        tocnt := (if s.cfg.timeoutPolls = none then s.tocnt else q), inbox := [],
        reply := some .accepted, env := e,
        trace := s.trace ++ execTrace s.cfg.padByte (frameUnits c) p ws.length q }
end

