-- ==== Sys2Proof/Laws/Decode.lean ====
section
/-! SUPPORT. Small facts of the decoder and the encoder. -/

namespace Sys2Proof.Machine

/-- The unary index in front of a frame is counted (assumption 4). -/
theorem decodePack_replicate (k n : Nat) (f : Bytes) :
    decodePack n (List.replicate k 1 ++ 0 :: f) =
      if f.length % 2 = 0 ∧ n + k < f.length / 2 then .ok (.pack f (n + k))
      else .error .packIndex := by
  induction k generalizing n with
  | zero => simp [decodePack]
  | succ k ih =>
    rw [List.replicate_succ, List.cons_append]
    simp only [decodePack, show (1 : Byte).toNat = 1 from rfl, ih, Nat.add_assoc, Nat.add_comm 1 k]

/-- What `PAD`'s selecting bit decides (rule R91). -/
theorem decodePad_even (c : Bytes) (h : c.length % 2 = 0) :
    decodePad (0 :: c) = .ok (.padEven c) := by
  simp [decodePad, h]

theorem decodePad_odd (c : Bytes) (h : c.length % 2 = 1) :
    decodePad (1 :: c) = .ok (.padOdd c) := by
  simp [decodePad, h]

/-- The word of a named phase decodes to the phase's row (rule R88). -/
theorem decode_phaseWord (p : Phase) : decode (phaseWord p) = decodePhase p.code := rfl

end Sys2Proof.Machine
end

