-- ==== Sys2Proof/Laws/Operands.lean ====
section
/-! SUPPORT. What the framer and the cleaner do, one lemma per function. -/

namespace Sys2Proof.Machine

/-! ### The framer -/

theorem pad_even (c : Bytes) (h : c.length % 2 = 0) : pad c = c ++ [0x0D, 0x0A] := by
  simp [pad, parity, h, termEven]

theorem pad_odd (c : Bytes) (h : c.length % 2 = 1) : pad c = c ++ [0x0D] := by
  simp [pad, parity, h, termOdd]

/-- The length of a frame, `F-FRAME` (rule R82). -/
theorem pad_length (c : Bytes) : (pad c).length = 2 * (c.length / 2 + 1) := by
  rcases Nat.mod_two_eq_zero_or_one c.length with h | h
  · simp [pad_even c h]; omega
  · simp [pad_odd c h]; omega

/-- The frame starts with the command, unchanged. -/
theorem pad_take (c : Bytes) : (pad c).take c.length = c := by
  rcases Nat.mod_two_eq_zero_or_one c.length with h | h
  · simp [pad_even c h]
  · simp [pad_odd c h]

theorem packAt_of_bytes (f : Bytes) (i : Nat) (a b : Byte) (ha : f[2 * i]? = some a)
    (hb : f[2 * i + 1]? = some b) : packAt f i = ⟨b, a⟩ := by
  simp [packAt, ha, hb]

/-- Inside its precondition `PACK` has both its bytes (rule R101). -/
theorem packAt_spec (f : Bytes) (i : Nat) (h : i < f.length / 2) :
    ∃ a b, f[2 * i]? = some a ∧ f[2 * i + 1]? = some b ∧ packAt f i = ⟨b, a⟩ := by
  have ha : 2 * i < f.length := by omega
  have hb : 2 * i + 1 < f.length := by omega
  have ha' := List.getElem?_eq_getElem ha
  have hb' := List.getElem?_eq_getElem hb
  exact ⟨_, _, ha', hb', packAt_of_bytes f i _ _ ha' hb'⟩

/-- Removing the first pair shifts the word index. -/
theorem packAt_cons (a b : Byte) (f : Bytes) (i : Nat) (h : i < f.length / 2) :
    packAt (a :: b :: f) (i + 1) = packAt f i := by
  obtain ⟨x, y, hx, hy, hp⟩ := packAt_spec f i h
  rw [hp]
  exact packAt_of_bytes _ _ x y (by simpa [Nat.mul_add] using hx) (by simpa [Nat.mul_add] using hy)

@[simp] theorem frameUnits_length (c : Bytes) : (frameUnits c).length = c.length / 2 + 1 := by
  simp [frameUnits, pad_length]

/-! ### The per-unit half of the cleaner -/

@[simp] theorem swapUnit_swapUnit (u : XUnit) : swapUnit (swapUnit u) = u := rfl

@[simp] theorem swapUnit_bytes (u : XUnit) : (swapUnit u).bytes = [u.second, u.first] := rfl

theorem isIdle_iff (p : Params) (u : XUnit) :
    isIdle p u = true ↔ u.first = p.idleByte ∧ u.second = p.idleByte := by
  cases u; simp [isIdle, Params.idleUnit]

theorem filtKeep_iff (p : Params) (u : XUnit) :
    filtKeep p u = true ↔ ¬(u.first = p.idleByte ∧ u.second = p.idleByte) := by
  rw [← isIdle_iff]; simp [filtKeep]

theorem accUnit_keep (p : Params) (raw : Bytes) (w : XUnit)
    (h : filtKeep p (swapUnit w) = true) : accUnit p raw w = raw ++ [w.second, w.first] := by
  simp [accUnit, h]

theorem accUnit_drop (p : Params) (raw : Bytes) (w : XUnit)
    (h : filtKeep p (swapUnit w) = false) : accUnit p raw w = raw := by
  simp [accUnit, h]

theorem length_le_accUnit (p : Params) (raw : Bytes) (w : XUnit) :
    raw.length ≤ (accUnit p raw w).length := by
  unfold accUnit; split <;> simp

/-- Accumulating never shortens, so a capacity that holds at the end held all along. -/
theorem length_le_foldl_accUnit (p : Params) (ws : List XUnit) (raw : Bytes) :
    raw.length ≤ (ws.foldl (accUnit p) raw).length := by
  induction ws generalizing raw with
  | nil => exact le_rfl
  | cons w ws ih => exact (length_le_accUnit p raw w).trans (ih _)

@[simp] theorem accAll_nil (p : Params) : accAll p [] = [] := rfl

@[simp] theorem accAll_append_one (p : Params) (ws : List XUnit) (w : XUnit) :
    accAll p (ws ++ [w]) = accUnit p (accAll p ws) w := by
  simp [accAll]

/-! ### The end-of-frame half of the cleaner -/

@[simp] theorem trimI_nil (p : Params) : trimI p [] = [] := rfl

/-- One turn of the loop of rule R113: an idle byte at the tail goes. -/
@[simp] theorem trimI_append_idle (p : Params) (b : Bytes) :
    trimI p (b ++ [p.idleByte]) = trimI p b := by
  simp [trimI]

/-- The loop ends at the first tail byte that is not idle. -/
theorem trimI_append_other (p : Params) (b : Bytes) (x : Byte) (h : x ≠ p.idleByte) :
    trimI p (b ++ [x]) = b ++ [x] := by
  simp [trimI, h]

/-- `TRIMI` removes a run of idle bytes at the tail and nothing else (rule R113). -/
theorem trimI_spec (p : Params) (b : Bytes) :
    ∃ n, b = trimI p b ++ List.replicate n p.idleByte ∧ tailIdle p (trimI p b) = false := by
  induction b using List.reverseRecOn with
  | nil => exact ⟨0, rfl, rfl⟩
  | append_singleton b x ih =>
    by_cases hx : x = p.idleByte
    · subst hx
      obtain ⟨n, hb, ht⟩ := ih
      refine ⟨n + 1, ?_, by rw [trimI_append_idle]; exact ht⟩
      rw [trimI_append_idle, List.replicate_succ', ← List.append_assoc, ← hb]
    · exact ⟨0, by simp [trimI_append_other p b x hx],
        by simp [trimI_append_other p b x hx, tailIdle, hx]⟩

/-- The decomposition of `trimI_spec` determines the result. -/
theorem trimI_unique (p : Params) (t : Bytes) (n : Nat) (h : tailIdle p t = false) :
    trimI p (t ++ List.replicate n p.idleByte) = t := by
  induction n with
  | zero =>
    rcases List.eq_nil_or_concat t with rfl | ⟨t', x, rfl⟩
    · rfl
    · simpa using trimI_append_other p t' x (by simpa [tailIdle] using h)
  | succ n ih => rw [List.replicate_succ', ← List.append_assoc, trimI_append_idle, ih]

theorem headTerm_iff (b : Bytes) : headTerm b = true ↔ ∃ r, b = 0x0D :: 0x0A :: r := by
  match b with
  | [] => simp [headTerm]
  | [x] => simp [headTerm]
  | x :: y :: r => simp [headTerm, lineTerm]

theorem trimH_of_term (r : Bytes) : trimH (0x0D :: 0x0A :: r) = r := by
  rw [trimH, if_pos ((headTerm_iff _).2 ⟨r, rfl⟩)]; rfl

theorem trimH_of_not_term (b : Bytes) (h : ∀ r, b ≠ 0x0D :: 0x0A :: r) : trimH b = b := by
  have : headTerm b ≠ true := fun hb => by
    obtain ⟨r, rfl⟩ := (headTerm_iff b).1 hb; exact h r rfl
  simp [trimH, this]

@[simp] theorem suffix_length (p : Params) : p.suffix.length = 8 := by simp [Params.suffix]

theorem tailPrompt_iff (p : Params) (b : Bytes) :
    tailPrompt p b = true ↔ ∃ t, b = t ++ p.suffix := by
  constructor
  · intro h
    simp only [tailPrompt, Bool.and_eq_true, decide_eq_true_eq, beq_iff_eq] at h
    exact ⟨b.take (b.length - 8), by rw [← h.2, List.take_append_drop]⟩
  · rintro ⟨t, rfl⟩
    simp [tailPrompt]

theorem trimP_of_suffix (p : Params) (t : Bytes) : trimP p (t ++ p.suffix) = t := by
  simp [trimP, (tailPrompt_iff p (t ++ p.suffix)).2 ⟨t, rfl⟩]

theorem trimP_of_not_suffix (p : Params) (b : Bytes) (h : ∀ t, b ≠ t ++ p.suffix) :
    trimP p b = b := by
  have : tailPrompt p b ≠ true := fun hb => by
    obtain ⟨t, ht⟩ := (tailPrompt_iff p b).1 hb; exact h t ht
  simp [trimP, this]

end Sys2Proof.Machine
end

