-- ==== Sys2Proof/Laws/State.lean ====
section
/-! SUPPORT. What each named update of the state does to each field, one lemma per field per update,
so that no later proof unfolds an update. -/

namespace Sys2Proof.Machine

@[simp] theorem waitAtLeast_eq (n : Nat) (s : State) : waitAtLeast n s = s := rfl

/-! ### `goto` -/

@[simp] theorem goto_cmd (p : Phase) (s : State) : (goto p s).cmd = s.cmd := rfl
@[simp] theorem goto_txbuf (p : Phase) (s : State) : (goto p s).txbuf = s.txbuf := rfl
@[simp] theorem goto_txi (p : Phase) (s : State) : (goto p s).txi = s.txi := rfl
@[simp] theorem goto_raw (p : Phase) (s : State) : (goto p s).raw = s.raw := rfl
@[simp] theorem goto_resp (p : Phase) (s : State) : (goto p s).resp = s.resp := rfl
@[simp] theorem goto_phase (p : Phase) (s : State) : (goto p s).phase = p := rfl
@[simp] theorem goto_cs (p : Phase) (s : State) : (goto p s).cs = s.cs := rfl
@[simp] theorem goto_rst (p : Phase) (s : State) : (goto p s).rst = s.rst := rfl
@[simp] theorem goto_initOk (p : Phase) (s : State) : (goto p s).initOk = s.initOk := rfl
@[simp] theorem goto_err (p : Phase) (s : State) : (goto p s).err = s.err := rfl
@[simp] theorem goto_errcode (p : Phase) (s : State) : (goto p s).errcode = s.errcode := rfl
@[simp] theorem goto_done (p : Phase) (s : State) : (goto p s).done = s.done := rfl
@[simp] theorem goto_tocnt (p : Phase) (s : State) : (goto p s).tocnt = s.tocnt := rfl
@[simp] theorem goto_cfg (p : Phase) (s : State) : (goto p s).cfg = s.cfg := rfl
@[simp] theorem goto_inbox (p : Phase) (s : State) : (goto p s).inbox = s.inbox := rfl
@[simp] theorem goto_env (p : Phase) (s : State) : (goto p s).env = s.env := rfl
@[simp] theorem goto_trace (p : Phase) (s : State) : (goto p s).trace = s.trace := rfl
@[simp] theorem goto_result (p : Phase) (s : State) : (goto p s).result = s.result := rfl
@[simp] theorem goto_reply (p : Phase) (s : State) : (goto p s).reply = s.reply := rfl
@[simp] theorem goto_polls (p : Phase) (s : State) : (goto p s).polls = s.polls := rfl
@[simp] theorem goto_raised (p : Phase) (s : State) : (goto p s).raised = s.raised := rfl

/-! ### `emit` -/

@[simp] theorem emit_cmd (a : TraceItem) (s : State) : (emit a s).cmd = s.cmd := rfl
@[simp] theorem emit_txbuf (a : TraceItem) (s : State) : (emit a s).txbuf = s.txbuf := rfl
@[simp] theorem emit_txi (a : TraceItem) (s : State) : (emit a s).txi = s.txi := rfl
@[simp] theorem emit_raw (a : TraceItem) (s : State) : (emit a s).raw = s.raw := rfl
@[simp] theorem emit_resp (a : TraceItem) (s : State) : (emit a s).resp = s.resp := rfl
@[simp] theorem emit_phase (a : TraceItem) (s : State) : (emit a s).phase = s.phase := rfl
@[simp] theorem emit_cs (a : TraceItem) (s : State) : (emit a s).cs = s.cs := rfl
@[simp] theorem emit_rst (a : TraceItem) (s : State) : (emit a s).rst = s.rst := rfl
@[simp] theorem emit_initOk (a : TraceItem) (s : State) : (emit a s).initOk = s.initOk := rfl
@[simp] theorem emit_err (a : TraceItem) (s : State) : (emit a s).err = s.err := rfl
@[simp] theorem emit_errcode (a : TraceItem) (s : State) : (emit a s).errcode = s.errcode := rfl
@[simp] theorem emit_done (a : TraceItem) (s : State) : (emit a s).done = s.done := rfl
@[simp] theorem emit_tocnt (a : TraceItem) (s : State) : (emit a s).tocnt = s.tocnt := rfl
@[simp] theorem emit_cfg (a : TraceItem) (s : State) : (emit a s).cfg = s.cfg := rfl
@[simp] theorem emit_inbox (a : TraceItem) (s : State) : (emit a s).inbox = s.inbox := rfl
@[simp] theorem emit_env (a : TraceItem) (s : State) : (emit a s).env = s.env := rfl
@[simp] theorem emit_trace (a : TraceItem) (s : State) : (emit a s).trace = s.trace ++ [a] := rfl
@[simp] theorem emit_result (a : TraceItem) (s : State) : (emit a s).result = s.result := rfl
@[simp] theorem emit_reply (a : TraceItem) (s : State) : (emit a s).reply = s.reply := rfl
@[simp] theorem emit_polls (a : TraceItem) (s : State) : (emit a s).polls = s.polls := rfl
@[simp] theorem emit_raised (a : TraceItem) (s : State) : (emit a s).raised = s.raised := rfl

/-! ### `rstAssert` -/

@[simp] theorem rstAssert_cmd (s : State) : (rstAssert s).cmd = s.cmd := rfl
@[simp] theorem rstAssert_txbuf (s : State) : (rstAssert s).txbuf = s.txbuf := rfl
@[simp] theorem rstAssert_txi (s : State) : (rstAssert s).txi = s.txi := rfl
@[simp] theorem rstAssert_raw (s : State) : (rstAssert s).raw = s.raw := rfl
@[simp] theorem rstAssert_resp (s : State) : (rstAssert s).resp = s.resp := rfl
@[simp] theorem rstAssert_phase (s : State) : (rstAssert s).phase = s.phase := rfl
@[simp] theorem rstAssert_cs (s : State) : (rstAssert s).cs = s.cs := rfl
@[simp] theorem rstAssert_rst (s : State) : (rstAssert s).rst = true := rfl
@[simp] theorem rstAssert_initOk (s : State) : (rstAssert s).initOk = s.initOk := rfl
@[simp] theorem rstAssert_err (s : State) : (rstAssert s).err = s.err := rfl
@[simp] theorem rstAssert_errcode (s : State) : (rstAssert s).errcode = s.errcode := rfl
@[simp] theorem rstAssert_done (s : State) : (rstAssert s).done = s.done := rfl
@[simp] theorem rstAssert_tocnt (s : State) : (rstAssert s).tocnt = s.tocnt := rfl
@[simp] theorem rstAssert_cfg (s : State) : (rstAssert s).cfg = s.cfg := rfl
@[simp] theorem rstAssert_inbox (s : State) : (rstAssert s).inbox = s.inbox := rfl
@[simp] theorem rstAssert_env (s : State) : (rstAssert s).env = s.env := rfl
@[simp] theorem rstAssert_trace (s : State) : (rstAssert s).trace = s.trace ++ [.rsta] := rfl
@[simp] theorem rstAssert_result (s : State) : (rstAssert s).result = s.result := rfl
@[simp] theorem rstAssert_reply (s : State) : (rstAssert s).reply = s.reply := rfl
@[simp] theorem rstAssert_polls (s : State) : (rstAssert s).polls = s.polls := rfl
@[simp] theorem rstAssert_raised (s : State) : (rstAssert s).raised = s.raised := rfl

/-! ### `rstRelease` -/

@[simp] theorem rstRelease_cmd (s : State) : (rstRelease s).cmd = s.cmd := rfl
@[simp] theorem rstRelease_txbuf (s : State) : (rstRelease s).txbuf = s.txbuf := rfl
@[simp] theorem rstRelease_txi (s : State) : (rstRelease s).txi = s.txi := rfl
@[simp] theorem rstRelease_raw (s : State) : (rstRelease s).raw = s.raw := rfl
@[simp] theorem rstRelease_resp (s : State) : (rstRelease s).resp = s.resp := rfl
@[simp] theorem rstRelease_phase (s : State) : (rstRelease s).phase = s.phase := rfl
@[simp] theorem rstRelease_cs (s : State) : (rstRelease s).cs = s.cs := rfl
@[simp] theorem rstRelease_rst (s : State) : (rstRelease s).rst = false := rfl
@[simp] theorem rstRelease_initOk (s : State) : (rstRelease s).initOk = s.initOk := rfl
@[simp] theorem rstRelease_err (s : State) : (rstRelease s).err = s.err := rfl
@[simp] theorem rstRelease_errcode (s : State) : (rstRelease s).errcode = s.errcode := rfl
@[simp] theorem rstRelease_done (s : State) : (rstRelease s).done = s.done := rfl
@[simp] theorem rstRelease_tocnt (s : State) : (rstRelease s).tocnt = s.tocnt := rfl
@[simp] theorem rstRelease_cfg (s : State) : (rstRelease s).cfg = s.cfg := rfl
@[simp] theorem rstRelease_inbox (s : State) : (rstRelease s).inbox = s.inbox := rfl
@[simp] theorem rstRelease_env (s : State) : (rstRelease s).env = s.env := rfl
@[simp] theorem rstRelease_trace (s : State) : (rstRelease s).trace = s.trace ++ [.rstr] := rfl
@[simp] theorem rstRelease_result (s : State) : (rstRelease s).result = s.result := rfl
@[simp] theorem rstRelease_reply (s : State) : (rstRelease s).reply = s.reply := rfl
@[simp] theorem rstRelease_polls (s : State) : (rstRelease s).polls = s.polls := rfl
@[simp] theorem rstRelease_raised (s : State) : (rstRelease s).raised = s.raised := rfl

/-! ### `selectLine` -/

@[simp] theorem selectLine_cmd (s : State) : (selectLine s).cmd = s.cmd := rfl
@[simp] theorem selectLine_txbuf (s : State) : (selectLine s).txbuf = s.txbuf := rfl
@[simp] theorem selectLine_txi (s : State) : (selectLine s).txi = s.txi := rfl
@[simp] theorem selectLine_raw (s : State) : (selectLine s).raw = s.raw := rfl
@[simp] theorem selectLine_resp (s : State) : (selectLine s).resp = s.resp := rfl
@[simp] theorem selectLine_phase (s : State) : (selectLine s).phase = s.phase := rfl
@[simp] theorem selectLine_cs (s : State) : (selectLine s).cs = true := rfl
@[simp] theorem selectLine_rst (s : State) : (selectLine s).rst = s.rst := rfl
@[simp] theorem selectLine_initOk (s : State) : (selectLine s).initOk = s.initOk := rfl
@[simp] theorem selectLine_err (s : State) : (selectLine s).err = s.err := rfl
@[simp] theorem selectLine_errcode (s : State) : (selectLine s).errcode = s.errcode := rfl
@[simp] theorem selectLine_done (s : State) : (selectLine s).done = s.done := rfl
@[simp] theorem selectLine_tocnt (s : State) : (selectLine s).tocnt = s.tocnt := rfl
@[simp] theorem selectLine_cfg (s : State) : (selectLine s).cfg = s.cfg := rfl
@[simp] theorem selectLine_inbox (s : State) : (selectLine s).inbox = s.inbox := rfl
@[simp] theorem selectLine_env (s : State) : (selectLine s).env = s.env := rfl
@[simp] theorem selectLine_trace (s : State) : (selectLine s).trace = s.trace ++ [.sel] := rfl
@[simp] theorem selectLine_result (s : State) : (selectLine s).result = s.result := rfl
@[simp] theorem selectLine_reply (s : State) : (selectLine s).reply = s.reply := rfl
@[simp] theorem selectLine_polls (s : State) : (selectLine s).polls = s.polls := rfl
@[simp] theorem selectLine_raised (s : State) : (selectLine s).raised = s.raised := rfl

/-! ### `deselectLine` -/

@[simp] theorem deselectLine_cmd (s : State) : (deselectLine s).cmd = s.cmd := rfl
@[simp] theorem deselectLine_txbuf (s : State) : (deselectLine s).txbuf = s.txbuf := rfl
@[simp] theorem deselectLine_txi (s : State) : (deselectLine s).txi = s.txi := rfl
@[simp] theorem deselectLine_raw (s : State) : (deselectLine s).raw = s.raw := rfl
@[simp] theorem deselectLine_resp (s : State) : (deselectLine s).resp = s.resp := rfl
@[simp] theorem deselectLine_phase (s : State) : (deselectLine s).phase = s.phase := rfl
@[simp] theorem deselectLine_cs (s : State) : (deselectLine s).cs = false := rfl
@[simp] theorem deselectLine_rst (s : State) : (deselectLine s).rst = s.rst := rfl
@[simp] theorem deselectLine_initOk (s : State) : (deselectLine s).initOk = s.initOk := rfl
@[simp] theorem deselectLine_err (s : State) : (deselectLine s).err = s.err := rfl
@[simp] theorem deselectLine_errcode (s : State) : (deselectLine s).errcode = s.errcode := rfl
@[simp] theorem deselectLine_done (s : State) : (deselectLine s).done = s.done := rfl
@[simp] theorem deselectLine_tocnt (s : State) : (deselectLine s).tocnt = s.tocnt := rfl
@[simp] theorem deselectLine_cfg (s : State) : (deselectLine s).cfg = s.cfg := rfl
@[simp] theorem deselectLine_inbox (s : State) : (deselectLine s).inbox = s.inbox := rfl
@[simp] theorem deselectLine_env (s : State) : (deselectLine s).env = s.env := rfl
@[simp] theorem deselectLine_trace (s : State) : (deselectLine s).trace = s.trace ++ [.desel] := rfl
@[simp] theorem deselectLine_result (s : State) : (deselectLine s).result = s.result := rfl
@[simp] theorem deselectLine_reply (s : State) : (deselectLine s).reply = s.reply := rfl
@[simp] theorem deselectLine_polls (s : State) : (deselectLine s).polls = s.polls := rfl
@[simp] theorem deselectLine_raised (s : State) : (deselectLine s).raised = s.raised := rfl

/-! ### `sampleLine` -/

@[simp] theorem sampleLine_cmd (s : State) : (sampleLine s).cmd = s.cmd := rfl
@[simp] theorem sampleLine_txbuf (s : State) : (sampleLine s).txbuf = s.txbuf := rfl
@[simp] theorem sampleLine_txi (s : State) : (sampleLine s).txi = s.txi := rfl
@[simp] theorem sampleLine_raw (s : State) : (sampleLine s).raw = s.raw := rfl
@[simp] theorem sampleLine_resp (s : State) : (sampleLine s).resp = s.resp := rfl
@[simp] theorem sampleLine_phase (s : State) : (sampleLine s).phase = s.phase := rfl
@[simp] theorem sampleLine_cs (s : State) : (sampleLine s).cs = s.cs := rfl
@[simp] theorem sampleLine_rst (s : State) : (sampleLine s).rst = s.rst := rfl
@[simp] theorem sampleLine_initOk (s : State) : (sampleLine s).initOk = s.initOk := rfl
@[simp] theorem sampleLine_err (s : State) : (sampleLine s).err = s.err := rfl
@[simp] theorem sampleLine_errcode (s : State) : (sampleLine s).errcode = s.errcode := rfl
@[simp] theorem sampleLine_done (s : State) : (sampleLine s).done = s.done := rfl
@[simp] theorem sampleLine_tocnt (s : State) : (sampleLine s).tocnt = s.tocnt := rfl
@[simp] theorem sampleLine_cfg (s : State) : (sampleLine s).cfg = s.cfg := rfl
@[simp] theorem sampleLine_inbox (s : State) : (sampleLine s).inbox = s.inbox := rfl
@[simp] theorem sampleLine_env (s : State) : (sampleLine s).env = dropBit s.env := rfl
@[simp] theorem sampleLine_trace (s : State) : (sampleLine s).trace = s.trace ++ [.sample (nextBit s)] := rfl
@[simp] theorem sampleLine_result (s : State) : (sampleLine s).result = s.result := rfl
@[simp] theorem sampleLine_reply (s : State) : (sampleLine s).reply = s.reply := rfl
@[simp] theorem sampleLine_polls (s : State) : (sampleLine s).polls = s.polls := rfl
@[simp] theorem sampleLine_raised (s : State) : (sampleLine s).raised = s.raised := rfl

/-! ### `exchange` -/

@[simp] theorem exchange_cmd (u : XUnit) (s : State) : (exchange u s).cmd = s.cmd := rfl
@[simp] theorem exchange_txbuf (u : XUnit) (s : State) : (exchange u s).txbuf = s.txbuf := rfl
@[simp] theorem exchange_txi (u : XUnit) (s : State) : (exchange u s).txi = s.txi := rfl
@[simp] theorem exchange_raw (u : XUnit) (s : State) : (exchange u s).raw = s.raw := rfl
@[simp] theorem exchange_resp (u : XUnit) (s : State) : (exchange u s).resp = s.resp := rfl
@[simp] theorem exchange_phase (u : XUnit) (s : State) : (exchange u s).phase = s.phase := rfl
@[simp] theorem exchange_cs (u : XUnit) (s : State) : (exchange u s).cs = s.cs := rfl
@[simp] theorem exchange_rst (u : XUnit) (s : State) : (exchange u s).rst = s.rst := rfl
@[simp] theorem exchange_initOk (u : XUnit) (s : State) : (exchange u s).initOk = s.initOk := rfl
@[simp] theorem exchange_err (u : XUnit) (s : State) : (exchange u s).err = s.err := rfl
@[simp] theorem exchange_errcode (u : XUnit) (s : State) : (exchange u s).errcode = s.errcode := rfl
@[simp] theorem exchange_done (u : XUnit) (s : State) : (exchange u s).done = s.done := rfl
@[simp] theorem exchange_tocnt (u : XUnit) (s : State) : (exchange u s).tocnt = s.tocnt := rfl
@[simp] theorem exchange_cfg (u : XUnit) (s : State) : (exchange u s).cfg = s.cfg := rfl
@[simp] theorem exchange_inbox (u : XUnit) (s : State) : (exchange u s).inbox = s.inbox := rfl
@[simp] theorem exchange_env (u : XUnit) (s : State) : (exchange u s).env = dropTxrx s.env := rfl
@[simp] theorem exchange_trace (u : XUnit) (s : State) : (exchange u s).trace = s.trace ++ [.xchg u] := rfl
@[simp] theorem exchange_result (u : XUnit) (s : State) : (exchange u s).result = s.result := rfl
@[simp] theorem exchange_reply (u : XUnit) (s : State) : (exchange u s).reply = s.reply := rfl
@[simp] theorem exchange_polls (u : XUnit) (s : State) : (exchange u s).polls = s.polls := rfl
@[simp] theorem exchange_raised (u : XUnit) (s : State) : (exchange u s).raised = s.raised := rfl

/-! ### `readUnit` -/

@[simp] theorem readUnit_cmd (s : State) : (readUnit s).cmd = s.cmd := rfl
@[simp] theorem readUnit_txbuf (s : State) : (readUnit s).txbuf = s.txbuf := rfl
@[simp] theorem readUnit_txi (s : State) : (readUnit s).txi = s.txi := rfl
@[simp] theorem readUnit_raw (s : State) : (readUnit s).raw = s.raw := rfl
@[simp] theorem readUnit_resp (s : State) : (readUnit s).resp = s.resp := rfl
@[simp] theorem readUnit_phase (s : State) : (readUnit s).phase = s.phase := rfl
@[simp] theorem readUnit_cs (s : State) : (readUnit s).cs = s.cs := rfl
@[simp] theorem readUnit_rst (s : State) : (readUnit s).rst = s.rst := rfl
@[simp] theorem readUnit_initOk (s : State) : (readUnit s).initOk = s.initOk := rfl
@[simp] theorem readUnit_err (s : State) : (readUnit s).err = s.err := rfl
@[simp] theorem readUnit_errcode (s : State) : (readUnit s).errcode = s.errcode := rfl
@[simp] theorem readUnit_done (s : State) : (readUnit s).done = s.done := rfl
@[simp] theorem readUnit_tocnt (s : State) : (readUnit s).tocnt = s.tocnt := rfl
@[simp] theorem readUnit_cfg (s : State) : (readUnit s).cfg = s.cfg := rfl
@[simp] theorem readUnit_inbox (s : State) : (readUnit s).inbox = s.inbox := rfl
@[simp] theorem readUnit_env (s : State) : (readUnit s).env = dropRx s.env := rfl
@[simp] theorem readUnit_trace (s : State) : (readUnit s).trace = s.trace ++ [.rd s.cfg.padByte] := rfl
@[simp] theorem readUnit_result (s : State) : (readUnit s).result = s.result := rfl
@[simp] theorem readUnit_reply (s : State) : (readUnit s).reply = s.reply := rfl
@[simp] theorem readUnit_polls (s : State) : (readUnit s).polls = s.polls := rfl
@[simp] theorem readUnit_raised (s : State) : (readUnit s).raised = s.raised := rfl

/-! ### `faultEntry` -/

@[simp] theorem faultEntry_cmd (f : FaultKind) (p : Phase) (s : State) : (faultEntry f p s).cmd = s.cmd := rfl
@[simp] theorem faultEntry_txbuf (f : FaultKind) (p : Phase) (s : State) : (faultEntry f p s).txbuf = s.txbuf := rfl
@[simp] theorem faultEntry_txi (f : FaultKind) (p : Phase) (s : State) : (faultEntry f p s).txi = s.txi := rfl
@[simp] theorem faultEntry_raw (f : FaultKind) (p : Phase) (s : State) : (faultEntry f p s).raw = s.raw := rfl
@[simp] theorem faultEntry_resp (f : FaultKind) (p : Phase) (s : State) : (faultEntry f p s).resp = s.resp := rfl
@[simp] theorem faultEntry_phase (f : FaultKind) (p : Phase) (s : State) : (faultEntry f p s).phase = .fault := rfl
@[simp] theorem faultEntry_cs (f : FaultKind) (p : Phase) (s : State) : (faultEntry f p s).cs = s.cs := rfl
@[simp] theorem faultEntry_rst (f : FaultKind) (p : Phase) (s : State) : (faultEntry f p s).rst = s.rst := rfl
@[simp] theorem faultEntry_initOk (f : FaultKind) (p : Phase) (s : State) : (faultEntry f p s).initOk = s.initOk := rfl
@[simp] theorem faultEntry_err (f : FaultKind) (p : Phase) (s : State) : (faultEntry f p s).err = true := rfl
@[simp] theorem faultEntry_errcode (f : FaultKind) (p : Phase) (s : State) : (faultEntry f p s).errcode = f.code := rfl
@[simp] theorem faultEntry_done (f : FaultKind) (p : Phase) (s : State) : (faultEntry f p s).done = s.done := rfl
@[simp] theorem faultEntry_tocnt (f : FaultKind) (p : Phase) (s : State) : (faultEntry f p s).tocnt = s.tocnt := rfl
@[simp] theorem faultEntry_cfg (f : FaultKind) (p : Phase) (s : State) : (faultEntry f p s).cfg = s.cfg := rfl
@[simp] theorem faultEntry_inbox (f : FaultKind) (p : Phase) (s : State) : (faultEntry f p s).inbox = s.inbox := rfl
@[simp] theorem faultEntry_env (f : FaultKind) (p : Phase) (s : State) : (faultEntry f p s).env = s.env := rfl
@[simp] theorem faultEntry_trace (f : FaultKind) (p : Phase) (s : State) : (faultEntry f p s).trace = s.trace := rfl
@[simp] theorem faultEntry_result (f : FaultKind) (p : Phase) (s : State) : (faultEntry f p s).result = s.result := rfl
@[simp] theorem faultEntry_reply (f : FaultKind) (p : Phase) (s : State) : (faultEntry f p s).reply = s.reply := rfl
@[simp] theorem faultEntry_polls (f : FaultKind) (p : Phase) (s : State) : (faultEntry f p s).polls = s.polls := rfl
@[simp] theorem faultEntry_raised (f : FaultKind) (p : Phase) (s : State) : (faultEntry f p s).raised = some ⟨f, p⟩ := rfl

/-! ### `refuse` -/

@[simp] theorem refuse_cmd (r : RefuseReason) (s : State) : (refuse r s).cmd = s.cmd := rfl
@[simp] theorem refuse_txbuf (r : RefuseReason) (s : State) : (refuse r s).txbuf = s.txbuf := rfl
@[simp] theorem refuse_txi (r : RefuseReason) (s : State) : (refuse r s).txi = s.txi := rfl
@[simp] theorem refuse_raw (r : RefuseReason) (s : State) : (refuse r s).raw = s.raw := rfl
@[simp] theorem refuse_resp (r : RefuseReason) (s : State) : (refuse r s).resp = s.resp := rfl
@[simp] theorem refuse_phase (r : RefuseReason) (s : State) : (refuse r s).phase = s.phase := rfl
@[simp] theorem refuse_cs (r : RefuseReason) (s : State) : (refuse r s).cs = s.cs := rfl
@[simp] theorem refuse_rst (r : RefuseReason) (s : State) : (refuse r s).rst = s.rst := rfl
@[simp] theorem refuse_initOk (r : RefuseReason) (s : State) : (refuse r s).initOk = s.initOk := rfl
@[simp] theorem refuse_err (r : RefuseReason) (s : State) : (refuse r s).err = s.err := rfl
@[simp] theorem refuse_errcode (r : RefuseReason) (s : State) : (refuse r s).errcode = s.errcode := rfl
@[simp] theorem refuse_done (r : RefuseReason) (s : State) : (refuse r s).done = s.done := rfl
@[simp] theorem refuse_tocnt (r : RefuseReason) (s : State) : (refuse r s).tocnt = s.tocnt := rfl
@[simp] theorem refuse_cfg (r : RefuseReason) (s : State) : (refuse r s).cfg = s.cfg := rfl
@[simp] theorem refuse_inbox (r : RefuseReason) (s : State) : (refuse r s).inbox = s.inbox := rfl
@[simp] theorem refuse_env (r : RefuseReason) (s : State) : (refuse r s).env = s.env := rfl
@[simp] theorem refuse_trace (r : RefuseReason) (s : State) : (refuse r s).trace = s.trace := rfl
@[simp] theorem refuse_result (r : RefuseReason) (s : State) : (refuse r s).result = s.result := rfl
@[simp] theorem refuse_reply (r : RefuseReason) (s : State) : (refuse r s).reply = some (.refused r) := rfl
@[simp] theorem refuse_polls (r : RefuseReason) (s : State) : (refuse r s).polls = s.polls := rfl
@[simp] theorem refuse_raised (r : RefuseReason) (s : State) : (refuse r s).raised = s.raised := rfl

/-! ### `acceptInit` -/

@[simp] theorem acceptInit_cmd (s : State) : (acceptInit s).cmd = s.cmd := rfl
@[simp] theorem acceptInit_txbuf (s : State) : (acceptInit s).txbuf = s.txbuf := rfl
@[simp] theorem acceptInit_txi (s : State) : (acceptInit s).txi = s.txi := rfl
@[simp] theorem acceptInit_raw (s : State) : (acceptInit s).raw = s.raw := rfl
@[simp] theorem acceptInit_resp (s : State) : (acceptInit s).resp = s.resp := rfl
@[simp] theorem acceptInit_phase (s : State) : (acceptInit s).phase = .iRsta := rfl
@[simp] theorem acceptInit_cs (s : State) : (acceptInit s).cs = s.cs := rfl
@[simp] theorem acceptInit_rst (s : State) : (acceptInit s).rst = s.rst := rfl
@[simp] theorem acceptInit_initOk (s : State) : (acceptInit s).initOk = false := rfl
@[simp] theorem acceptInit_err (s : State) : (acceptInit s).err = s.err := rfl
@[simp] theorem acceptInit_errcode (s : State) : (acceptInit s).errcode = s.errcode := rfl
@[simp] theorem acceptInit_done (s : State) : (acceptInit s).done = false := rfl
@[simp] theorem acceptInit_tocnt (s : State) : (acceptInit s).tocnt = s.tocnt := rfl
@[simp] theorem acceptInit_cfg (s : State) : (acceptInit s).cfg = s.cfg := rfl
@[simp] theorem acceptInit_inbox (s : State) : (acceptInit s).inbox = s.inbox := rfl
@[simp] theorem acceptInit_env (s : State) : (acceptInit s).env = s.env := rfl
@[simp] theorem acceptInit_trace (s : State) : (acceptInit s).trace = s.trace := rfl
@[simp] theorem acceptInit_result (s : State) : (acceptInit s).result = s.result := rfl
@[simp] theorem acceptInit_reply (s : State) : (acceptInit s).reply = some .accepted := rfl
@[simp] theorem acceptInit_polls (s : State) : (acceptInit s).polls = s.polls := rfl
@[simp] theorem acceptInit_raised (s : State) : (acceptInit s).raised = s.raised := rfl

/-! ### `acceptExec` -/

@[simp] theorem acceptExec_cmd (c : Bytes) (s : State) : (acceptExec c s).cmd = c := rfl
@[simp] theorem acceptExec_txbuf (c : Bytes) (s : State) : (acceptExec c s).txbuf = s.txbuf := rfl
@[simp] theorem acceptExec_txi (c : Bytes) (s : State) : (acceptExec c s).txi = s.txi := rfl
@[simp] theorem acceptExec_raw (c : Bytes) (s : State) : (acceptExec c s).raw = s.raw := rfl
@[simp] theorem acceptExec_resp (c : Bytes) (s : State) : (acceptExec c s).resp = s.resp := rfl
@[simp] theorem acceptExec_phase (c : Bytes) (s : State) : (acceptExec c s).phase = .xPad := rfl
@[simp] theorem acceptExec_cs (c : Bytes) (s : State) : (acceptExec c s).cs = s.cs := rfl
@[simp] theorem acceptExec_rst (c : Bytes) (s : State) : (acceptExec c s).rst = s.rst := rfl
@[simp] theorem acceptExec_initOk (c : Bytes) (s : State) : (acceptExec c s).initOk = s.initOk := rfl
@[simp] theorem acceptExec_err (c : Bytes) (s : State) : (acceptExec c s).err = s.err := rfl
@[simp] theorem acceptExec_errcode (c : Bytes) (s : State) : (acceptExec c s).errcode = s.errcode := rfl
@[simp] theorem acceptExec_done (c : Bytes) (s : State) : (acceptExec c s).done = false := rfl
@[simp] theorem acceptExec_tocnt (c : Bytes) (s : State) : (acceptExec c s).tocnt = s.tocnt := rfl
@[simp] theorem acceptExec_cfg (c : Bytes) (s : State) : (acceptExec c s).cfg = s.cfg := rfl
@[simp] theorem acceptExec_inbox (c : Bytes) (s : State) : (acceptExec c s).inbox = s.inbox := rfl
@[simp] theorem acceptExec_env (c : Bytes) (s : State) : (acceptExec c s).env = s.env := rfl
@[simp] theorem acceptExec_trace (c : Bytes) (s : State) : (acceptExec c s).trace = s.trace := rfl
@[simp] theorem acceptExec_result (c : Bytes) (s : State) : (acceptExec c s).result = s.result := rfl
@[simp] theorem acceptExec_reply (c : Bytes) (s : State) : (acceptExec c s).reply = some .accepted := rfl
@[simp] theorem acceptExec_polls (c : Bytes) (s : State) : (acceptExec c s).polls = s.polls := rfl
@[simp] theorem acceptExec_raised (c : Bytes) (s : State) : (acceptExec c s).raised = s.raised := rfl

/-! ### `blockReset` -/

/-- Block reset shows the module nothing when both lines stand at 0 already. -/
theorem resetFalls_eq_nil (s : State) (hc : s.cs = false) (hr : s.rst = false) :
    resetFalls s = [] := by
  simp [resetFalls, hc, hr]

/-- Block reset shows the module the lines that fall. -/
theorem resetFalls_eq_fall (s : State) (h : s.cs = true ∨ s.rst = true) :
    resetFalls s = [.fall s.cs s.rst] := by
  simp [resetFalls, h]

@[simp] theorem blockReset_cmd (s : State) : (blockReset s).cmd = [] := rfl
@[simp] theorem blockReset_txbuf (s : State) : (blockReset s).txbuf = [] := rfl
@[simp] theorem blockReset_txi (s : State) : (blockReset s).txi = 0 := rfl
@[simp] theorem blockReset_raw (s : State) : (blockReset s).raw = [] := rfl
@[simp] theorem blockReset_resp (s : State) : (blockReset s).resp = [] := rfl
@[simp] theorem blockReset_phase (s : State) : (blockReset s).phase = .uninit := rfl
@[simp] theorem blockReset_cs (s : State) : (blockReset s).cs = false := rfl
@[simp] theorem blockReset_rst (s : State) : (blockReset s).rst = false := rfl
@[simp] theorem blockReset_initOk (s : State) : (blockReset s).initOk = false := rfl
@[simp] theorem blockReset_err (s : State) : (blockReset s).err = false := rfl
@[simp] theorem blockReset_errcode (s : State) : (blockReset s).errcode = 0 := rfl
@[simp] theorem blockReset_done (s : State) : (blockReset s).done = false := rfl
@[simp] theorem blockReset_tocnt (s : State) : (blockReset s).tocnt = 0 := rfl
@[simp] theorem blockReset_cfg (s : State) : (blockReset s).cfg = s.cfg := rfl
@[simp] theorem blockReset_inbox (s : State) : (blockReset s).inbox = s.inbox := rfl
@[simp] theorem blockReset_env (s : State) : (blockReset s).env = s.env := rfl
@[simp] theorem blockReset_trace (s : State) : (blockReset s).trace = s.trace ++ resetFalls s := rfl
@[simp] theorem blockReset_result (s : State) : (blockReset s).result = .none := rfl
@[simp] theorem blockReset_reply (s : State) : (blockReset s).reply = none := rfl
@[simp] theorem blockReset_polls (s : State) : (blockReset s).polls = 0 := rfl
@[simp] theorem blockReset_raised (s : State) : (blockReset s).raised = none := rfl

/-! ### `deliver` -/

@[simp] theorem deliver_cmd (r : Result) (s : State) : (deliver r s).cmd = s.cmd := rfl
@[simp] theorem deliver_txbuf (r : Result) (s : State) : (deliver r s).txbuf = s.txbuf := rfl
@[simp] theorem deliver_txi (r : Result) (s : State) : (deliver r s).txi = s.txi := rfl
@[simp] theorem deliver_raw (r : Result) (s : State) : (deliver r s).raw = s.raw := rfl
@[simp] theorem deliver_resp (r : Result) (s : State) : (deliver r s).resp = s.resp := rfl
@[simp] theorem deliver_phase (r : Result) (s : State) : (deliver r s).phase = s.phase := rfl
@[simp] theorem deliver_cs (r : Result) (s : State) : (deliver r s).cs = s.cs := rfl
@[simp] theorem deliver_rst (r : Result) (s : State) : (deliver r s).rst = s.rst := rfl
@[simp] theorem deliver_initOk (r : Result) (s : State) : (deliver r s).initOk = s.initOk := rfl
@[simp] theorem deliver_err (r : Result) (s : State) : (deliver r s).err = s.err := rfl
@[simp] theorem deliver_errcode (r : Result) (s : State) : (deliver r s).errcode = s.errcode := rfl
@[simp] theorem deliver_done (r : Result) (s : State) : (deliver r s).done = s.done := rfl
@[simp] theorem deliver_tocnt (r : Result) (s : State) : (deliver r s).tocnt = s.tocnt := rfl
@[simp] theorem deliver_cfg (r : Result) (s : State) : (deliver r s).cfg = s.cfg := rfl
@[simp] theorem deliver_inbox (r : Result) (s : State) : (deliver r s).inbox = s.inbox := rfl
@[simp] theorem deliver_env (r : Result) (s : State) : (deliver r s).env = s.env := rfl
@[simp] theorem deliver_trace (r : Result) (s : State) : (deliver r s).trace = s.trace := rfl
@[simp] theorem deliver_result (r : Result) (s : State) : (deliver r s).result = r := rfl
@[simp] theorem deliver_reply (r : Result) (s : State) : (deliver r s).reply = s.reply := rfl
@[simp] theorem deliver_polls (r : Result) (s : State) : (deliver r s).polls = s.polls := rfl
@[simp] theorem deliver_raised (r : Result) (s : State) : (deliver r s).raised = s.raised := rfl

/-! ### `clearTocnt` -/

@[simp] theorem clearTocnt_cmd (s : State) : (clearTocnt s).cmd = s.cmd := by
  unfold clearTocnt; split <;> rfl
@[simp] theorem clearTocnt_txbuf (s : State) : (clearTocnt s).txbuf = s.txbuf := by
  unfold clearTocnt; split <;> rfl
@[simp] theorem clearTocnt_txi (s : State) : (clearTocnt s).txi = s.txi := by
  unfold clearTocnt; split <;> rfl
@[simp] theorem clearTocnt_raw (s : State) : (clearTocnt s).raw = s.raw := by
  unfold clearTocnt; split <;> rfl
@[simp] theorem clearTocnt_resp (s : State) : (clearTocnt s).resp = s.resp := by
  unfold clearTocnt; split <;> rfl
@[simp] theorem clearTocnt_phase (s : State) : (clearTocnt s).phase = s.phase := by
  unfold clearTocnt; split <;> rfl
@[simp] theorem clearTocnt_cs (s : State) : (clearTocnt s).cs = s.cs := by
  unfold clearTocnt; split <;> rfl
@[simp] theorem clearTocnt_rst (s : State) : (clearTocnt s).rst = s.rst := by
  unfold clearTocnt; split <;> rfl
@[simp] theorem clearTocnt_initOk (s : State) : (clearTocnt s).initOk = s.initOk := by
  unfold clearTocnt; split <;> rfl
@[simp] theorem clearTocnt_err (s : State) : (clearTocnt s).err = s.err := by
  unfold clearTocnt; split <;> rfl
@[simp] theorem clearTocnt_errcode (s : State) : (clearTocnt s).errcode = s.errcode := by
  unfold clearTocnt; split <;> rfl
@[simp] theorem clearTocnt_done (s : State) : (clearTocnt s).done = s.done := by
  unfold clearTocnt; split <;> rfl
@[simp] theorem clearTocnt_cfg (s : State) : (clearTocnt s).cfg = s.cfg := by
  unfold clearTocnt; split <;> rfl
@[simp] theorem clearTocnt_inbox (s : State) : (clearTocnt s).inbox = s.inbox := by
  unfold clearTocnt; split <;> rfl
@[simp] theorem clearTocnt_env (s : State) : (clearTocnt s).env = s.env := by
  unfold clearTocnt; split <;> rfl
@[simp] theorem clearTocnt_trace (s : State) : (clearTocnt s).trace = s.trace := by
  unfold clearTocnt; split <;> rfl
@[simp] theorem clearTocnt_result (s : State) : (clearTocnt s).result = s.result := by
  unfold clearTocnt; split <;> rfl
@[simp] theorem clearTocnt_reply (s : State) : (clearTocnt s).reply = s.reply := by
  unfold clearTocnt; split <;> rfl
@[simp] theorem clearTocnt_polls (s : State) : (clearTocnt s).polls = s.polls := by
  unfold clearTocnt; split <;> rfl
@[simp] theorem clearTocnt_raised (s : State) : (clearTocnt s).raised = s.raised := by
  unfold clearTocnt; split <;> rfl

/-! ### `countZero` -/

@[simp] theorem countZero_cmd (s : State) : (countZero s).cmd = s.cmd := by
  unfold countZero; split <;> rfl
@[simp] theorem countZero_txbuf (s : State) : (countZero s).txbuf = s.txbuf := by
  unfold countZero; split <;> rfl
@[simp] theorem countZero_txi (s : State) : (countZero s).txi = s.txi := by
  unfold countZero; split <;> rfl
@[simp] theorem countZero_raw (s : State) : (countZero s).raw = s.raw := by
  unfold countZero; split <;> rfl
@[simp] theorem countZero_resp (s : State) : (countZero s).resp = s.resp := by
  unfold countZero; split <;> rfl
@[simp] theorem countZero_phase (s : State) : (countZero s).phase = s.phase := by
  unfold countZero; split <;> rfl
@[simp] theorem countZero_cs (s : State) : (countZero s).cs = s.cs := by
  unfold countZero; split <;> rfl
@[simp] theorem countZero_rst (s : State) : (countZero s).rst = s.rst := by
  unfold countZero; split <;> rfl
@[simp] theorem countZero_initOk (s : State) : (countZero s).initOk = s.initOk := by
  unfold countZero; split <;> rfl
@[simp] theorem countZero_err (s : State) : (countZero s).err = s.err := by
  unfold countZero; split <;> rfl
@[simp] theorem countZero_errcode (s : State) : (countZero s).errcode = s.errcode := by
  unfold countZero; split <;> rfl
@[simp] theorem countZero_done (s : State) : (countZero s).done = s.done := by
  unfold countZero; split <;> rfl
@[simp] theorem countZero_cfg (s : State) : (countZero s).cfg = s.cfg := by
  unfold countZero; split <;> rfl
@[simp] theorem countZero_inbox (s : State) : (countZero s).inbox = s.inbox := by
  unfold countZero; split <;> rfl
@[simp] theorem countZero_env (s : State) : (countZero s).env = s.env := by
  unfold countZero; split <;> rfl
@[simp] theorem countZero_trace (s : State) : (countZero s).trace = s.trace := by
  unfold countZero; split <;> rfl
@[simp] theorem countZero_result (s : State) : (countZero s).result = s.result := by
  unfold countZero; split <;> rfl
@[simp] theorem countZero_reply (s : State) : (countZero s).reply = s.reply := by
  unfold countZero; split <;> rfl
@[simp] theorem countZero_polls (s : State) : (countZero s).polls = s.polls := by
  unfold countZero; split <;> rfl
@[simp] theorem countZero_raised (s : State) : (countZero s).raised = s.raised := by
  unfold countZero; split <;> rfl

theorem clearTocnt_absent (s : State) (h : s.cfg.timeoutPolls = none) : clearTocnt s = s := by
  simp [clearTocnt, h]

theorem clearTocnt_present (s : State) (n : Nat) (h : s.cfg.timeoutPolls = some n) :
    clearTocnt s = { s with tocnt := 0 } := by
  simp [clearTocnt, h]

theorem countZero_absent (s : State) (h : s.cfg.timeoutPolls = none) : countZero s = s := by
  simp [countZero, h]

theorem countZero_present (s : State) (n : Nat) (h : s.cfg.timeoutPolls = some n) :
    countZero s = { s with tocnt := s.tocnt + 1 } := by
  simp [countZero, h]

/-! ### `clearPolls` -/

@[simp] theorem clearPolls_cmd (s : State) : (clearPolls s).cmd = s.cmd := rfl
@[simp] theorem clearPolls_txbuf (s : State) : (clearPolls s).txbuf = s.txbuf := rfl
@[simp] theorem clearPolls_txi (s : State) : (clearPolls s).txi = s.txi := rfl
@[simp] theorem clearPolls_raw (s : State) : (clearPolls s).raw = s.raw := rfl
@[simp] theorem clearPolls_resp (s : State) : (clearPolls s).resp = s.resp := rfl
@[simp] theorem clearPolls_phase (s : State) : (clearPolls s).phase = s.phase := rfl
@[simp] theorem clearPolls_cs (s : State) : (clearPolls s).cs = s.cs := rfl
@[simp] theorem clearPolls_rst (s : State) : (clearPolls s).rst = s.rst := rfl
@[simp] theorem clearPolls_initOk (s : State) : (clearPolls s).initOk = s.initOk := rfl
@[simp] theorem clearPolls_err (s : State) : (clearPolls s).err = s.err := rfl
@[simp] theorem clearPolls_errcode (s : State) : (clearPolls s).errcode = s.errcode := rfl
@[simp] theorem clearPolls_done (s : State) : (clearPolls s).done = s.done := rfl
@[simp] theorem clearPolls_tocnt (s : State) : (clearPolls s).tocnt = s.tocnt := rfl
@[simp] theorem clearPolls_cfg (s : State) : (clearPolls s).cfg = s.cfg := rfl
@[simp] theorem clearPolls_inbox (s : State) : (clearPolls s).inbox = s.inbox := rfl
@[simp] theorem clearPolls_env (s : State) : (clearPolls s).env = s.env := rfl
@[simp] theorem clearPolls_trace (s : State) : (clearPolls s).trace = s.trace := rfl
@[simp] theorem clearPolls_result (s : State) : (clearPolls s).result = s.result := rfl
@[simp] theorem clearPolls_reply (s : State) : (clearPolls s).reply = s.reply := rfl
@[simp] theorem clearPolls_polls (s : State) : (clearPolls s).polls = 0 := rfl
@[simp] theorem clearPolls_raised (s : State) : (clearPolls s).raised = s.raised := rfl

/-! ### `countPoll` -/

@[simp] theorem countPoll_cmd (s : State) : (countPoll s).cmd = s.cmd := by
  unfold countPoll; split <;> rfl
@[simp] theorem countPoll_txbuf (s : State) : (countPoll s).txbuf = s.txbuf := by
  unfold countPoll; split <;> rfl
@[simp] theorem countPoll_txi (s : State) : (countPoll s).txi = s.txi := by
  unfold countPoll; split <;> rfl
@[simp] theorem countPoll_raw (s : State) : (countPoll s).raw = s.raw := by
  unfold countPoll; split <;> rfl
@[simp] theorem countPoll_resp (s : State) : (countPoll s).resp = s.resp := by
  unfold countPoll; split <;> rfl
@[simp] theorem countPoll_phase (s : State) : (countPoll s).phase = s.phase := by
  unfold countPoll; split <;> rfl
@[simp] theorem countPoll_cs (s : State) : (countPoll s).cs = s.cs := by
  unfold countPoll; split <;> rfl
@[simp] theorem countPoll_rst (s : State) : (countPoll s).rst = s.rst := by
  unfold countPoll; split <;> rfl
@[simp] theorem countPoll_initOk (s : State) : (countPoll s).initOk = s.initOk := by
  unfold countPoll; split <;> rfl
@[simp] theorem countPoll_err (s : State) : (countPoll s).err = s.err := by
  unfold countPoll; split <;> rfl
@[simp] theorem countPoll_errcode (s : State) : (countPoll s).errcode = s.errcode := by
  unfold countPoll; split <;> rfl
@[simp] theorem countPoll_done (s : State) : (countPoll s).done = s.done := by
  unfold countPoll; split <;> rfl
@[simp] theorem countPoll_tocnt (s : State) : (countPoll s).tocnt = s.tocnt := by
  unfold countPoll; split <;> rfl
@[simp] theorem countPoll_cfg (s : State) : (countPoll s).cfg = s.cfg := by
  unfold countPoll; split <;> rfl
@[simp] theorem countPoll_inbox (s : State) : (countPoll s).inbox = s.inbox := by
  unfold countPoll; split <;> rfl
@[simp] theorem countPoll_env (s : State) : (countPoll s).env = s.env := by
  unfold countPoll; split <;> rfl
@[simp] theorem countPoll_trace (s : State) : (countPoll s).trace = s.trace := by
  unfold countPoll; split <;> rfl
@[simp] theorem countPoll_result (s : State) : (countPoll s).result = s.result := by
  unfold countPoll; split <;> rfl
@[simp] theorem countPoll_reply (s : State) : (countPoll s).reply = s.reply := by
  unfold countPoll; split <;> rfl
@[simp] theorem countPoll_raised (s : State) : (countPoll s).raised = s.raised := by
  unfold countPoll; split <;> rfl

theorem countPoll_absent (s : State) (h : s.cfg.timeoutPolls = none) : countPoll s = s := by
  simp [countPoll, h]

theorem countPoll_present (s : State) (n : Nat) (h : s.cfg.timeoutPolls = some n) :
    countPoll s = { s with polls := s.polls + 1 } := by
  simp [countPoll, h]

/-! ### Draws -/

theorem nextBit_of_cons (s : State) (b : Bool) (ds : List Bool) (h : s.env.d = b :: ds) :
    nextBit s = b := by
  simp [nextBit, h]

theorem nextRx_of_cons (s : State) (u : XUnit) (us : List XUnit) (h : s.env.rx = u :: us) :
    nextRx s = u := by
  simp [nextRx, h]

theorem nextTxrx_of_cons (s : State) (u : XUnit) (us : List XUnit) (h : s.env.txrx = u :: us) :
    nextTxrx s = u := by
  simp [nextTxrx, h]

@[simp] theorem dropBit_d (e : Env) : (dropBit e).d = e.d.tail := by
  unfold dropBit; split <;> simp_all

@[simp] theorem dropBit_rx (e : Env) : (dropBit e).rx = e.rx := by
  unfold dropBit; split <;> rfl

@[simp] theorem dropBit_txrx (e : Env) : (dropBit e).txrx = e.txrx := by
  unfold dropBit; split <;> rfl

@[simp] theorem dropRx_rx (e : Env) : (dropRx e).rx = e.rx.tail := by
  unfold dropRx; split <;> simp_all

@[simp] theorem dropRx_d (e : Env) : (dropRx e).d = e.d := by
  unfold dropRx; split <;> rfl

@[simp] theorem dropRx_txrx (e : Env) : (dropRx e).txrx = e.txrx := by
  unfold dropRx; split <;> rfl

@[simp] theorem dropTxrx_txrx (e : Env) : (dropTxrx e).txrx = e.txrx.tail := by
  unfold dropTxrx; split <;> simp_all

@[simp] theorem dropTxrx_d (e : Env) : (dropTxrx e).d = e.d := by
  unfold dropTxrx; split <;> rfl

@[simp] theorem dropTxrx_rx (e : Env) : (dropTxrx e).rx = e.rx := by
  unfold dropTxrx; split <;> rfl

end Sys2Proof.Machine
end

