-- ==== Sys2Proof/Laws/Ops.lean ====
section
/-! SUPPORT. What each shared operation can do, said once. -/

namespace Sys2Proof.Machine

theorem overRawMax_eq_false_iff (p : Params) (raw : Bytes) :
    overRawMax p raw = false ↔ ∀ n, p.nRawMax = some n → raw.length + 2 ≤ n := by
  cases h : p.nRawMax <;> simp [overRawMax, h]

theorem overCmdMax_eq_false_iff (p : Params) (c : Bytes) :
    overCmdMax p c = false ↔ ∀ n, p.nCmdMax = some n → c.length ≤ n := by
  cases h : p.nCmdMax <;> simp [overCmdMax, h]

theorem timeoutAfter_iff (p : Params) (count : Nat) :
    timeoutAfter p count = true ↔ p.timeoutPolls = some (count + 1) := by
  cases h : p.timeoutPolls with
  | none => simp [timeoutAfter, h]
  | some n => simp only [timeoutAfter, h, beq_iff_eq, Option.some.injEq]; exact eq_comm

theorem timeoutNow_iff (s : State) :
    timeoutNow s = true ↔ s.cfg.timeoutPolls = some (s.tocnt + 1) := timeoutAfter_iff s.cfg s.tocnt

/-- What a fault code performed by itself can do (rules R90, R198). -/
theorem raiseAlone_cases (f : FaultKind) (s : State) :
    (f.existsAt s.cfg = true ∧ raiseAlone f s = faultEntry f s.phase s) ∨
    (f.existsAt s.cfg = false ∧ raiseAlone f s = s) := by
  cases h : f.existsAt s.cfg <;> simp [raiseAlone, h]

/-- What a turn of a WAITRDY presented by itself can do (rule R139). -/
theorem execWaitrdy_cases (s : State) :
    (nextBit s = true ∧
      execWaitrdy s = .next (deliver (.bit true) (clearPolls (sampleLine s)))) ∨
    (nextBit s = false ∧ s.cfg.timeoutPolls = some (s.polls + 1) ∧
      execWaitrdy s = .next (faultEntry .fTimeout s.phase (clearPolls (sampleLine s)))) ∨
    (nextBit s = false ∧ s.cfg.timeoutPolls ≠ some (s.polls + 1) ∧
      execWaitrdy s = .next { countPoll (sampleLine s) with
        inbox := .word (encode .waitrdy) :: s.inbox }) := by
  unfold execWaitrdy
  by_cases hb : nextBit s = true
  · simp [hb]
  · by_cases ht : timeoutAfter s.cfg s.polls = true
    · have := (timeoutAfter_iff _ _).1 ht; simp [hb, ht, this]
    · have : s.cfg.timeoutPolls ≠ some (s.polls + 1) := fun h => ht ((timeoutAfter_iff _ _).2 h)
      simp [hb, ht, this]

/-- An offer is accepted in a resting phase other than S_FAULT, an EXEC only in S_IDLE with a
command that fits; it is refused for the first reason that holds otherwise (rule R150). -/
theorem refusalOf_eq_none_iff (op : Option Bytes) (s : State) :
    refusalOf op s = none ↔ (op = none ∧ (s.phase = .uninit ∨ s.phase = .idle)) ∨
      (∃ c, op = some c ∧ s.phase = .idle ∧ overCmdMax s.cfg c = false) := by
  unfold refusalOf busy
  cases hp : s.phase <;> cases op <;> simp [Phase.resting]

/-- What a turn of a busy-wait can do (rules R167, R170). -/
theorem waitTurn_cases (self after : Phase) (s : State) :
    (nextBit s = true ∧ waitTurn self after s = goto after (sampleLine s)) ∨
    (nextBit s = false ∧ s.cfg.timeoutPolls = some (s.tocnt + 1) ∧
      waitTurn self after s = faultEntry .fTimeout self (sampleLine s)) ∨
    (nextBit s = false ∧ s.cfg.timeoutPolls ≠ some (s.tocnt + 1) ∧
      waitTurn self after s = goto self (countZero (sampleLine s))) := by
  unfold waitTurn
  by_cases hb : nextBit s = true
  · simp [hb]
  · by_cases ht : timeoutNow s = true
    · have := (timeoutNow_iff s).1 ht; simp [hb, ht, this]
    · have : s.cfg.timeoutPolls ≠ some (s.tocnt + 1) := fun h => ht ((timeoutNow_iff s).2 h)
      simp [hb, ht, this]

/-- What receiving one unit can do (rules R159, R168). -/
theorem receiveUnit_cases (self : Phase) (s : State) :
    (filtKeep s.cfg (swapUnit (nextRx s)) = false ∧
      receiveUnit self s = goto self (readUnit s)) ∨
    (filtKeep s.cfg (swapUnit (nextRx s)) = true ∧ overRawMax s.cfg s.raw = true ∧
      receiveUnit self s = faultEntry .fOverflow self (readUnit s)) ∨
    (filtKeep s.cfg (swapUnit (nextRx s)) = true ∧ overRawMax s.cfg s.raw = false ∧
      receiveUnit self s = goto self { readUnit s with
        raw := s.raw ++ [(nextRx s).second, (nextRx s).first] }) := by
  unfold receiveUnit
  by_cases hk : filtKeep s.cfg (swapUnit (nextRx s)) = true
  · by_cases ho : overRawMax s.cfg s.raw = true
    · simp [hk, ho]
    · simp [hk, ho, accUnit_keep s.cfg s.raw _ hk]
  · have hk' : filtKeep s.cfg (swapUnit (nextRx s)) = false := by simpa using hk
    simp only [hk', accUnit_drop s.cfg s.raw _ hk']
    simp [readUnit, emit]

/-- What a turn of a receive loop can do (rules R159, R168). -/
theorem receiveTurn_cases (self after : Phase) (s : State) :
    (nextBit s = false ∧ receiveTurn self after s = goto after (sampleLine s)) ∨
    (nextBit s = true ∧ receiveTurn self after s = receiveUnit self (sampleLine s)) := by
  unfold receiveTurn
  by_cases hb : nextBit s = true <;> simp [hb]

end Sys2Proof.Machine
end

