-- ==== Sys2Proof/Laws/PerInstr.lean ====
section
/-! SUPPORT. The family `Selector`: the first byte of an operation's word names its format, one
lemma per constructor (assumption 4). -/

namespace Sys2Proof.Laws.Selector

/-- The byte that names the format and row of an operation (assumption 4). -/
def formatByte : Instr → Byte
  | .init => 1
  | .exec _ => 1
  | .sUninit => 0
  | .sIdle => 0
  | .sFault => 0
  | .sIRsta => 0
  | .sIRstr => 0
  | .sISel => 0
  | .sIDrain => 0
  | .sICheck => 0
  | .sXPad => 0
  | .sXDesel1 => 0
  | .sXSel1 => 0
  | .sXTx => 0
  | .sXDesel2 => 0
  | .sXSel2 => 0
  | .sXWait1 => 0
  | .sXRx => 0
  | .sXDesel3 => 0
  | .sXWait2 => 0
  | .sXClean => 0
  | .phaseReserved19 => 0
  | .phaseReserved20 _ => 0
  | .phaseReserved24 _ => 0
  | .rsta => 2
  | .rstr => 2
  | .sel => 2
  | .desel => 2
  | .sample => 2
  | .xchg _ => 2
  | .rd => 2
  | .primReserved => 2
  | .hardReset => 3
  | .toggle => 3
  | .waitrdy => 3
  | .padEven _ => 4
  | .padOdd _ => 4
  | .pack _ _ => 6
  | .frame _ => 5
  | .swap _ => 7
  | .filt _ => 9
  | .acc _ _ => 8
  | .trimi _ => 10
  | .trimh _ => 11
  | .trimp _ => 12
  | .clean _ => 13
  | .check _ => 14
  | .errNone => 15
  | .fInit => 15
  | .fTimeout => 15
  | .fOverflow => 15

/-- The word of an operation starts with its format's byte. -/
def Statement (i : Instr) : Prop := ∃ r, encode i = formatByte i :: r

theorem init : Statement .init := ⟨_, rfl⟩

theorem exec (c : Bytes) : Statement (.exec c) := ⟨_, rfl⟩

theorem sUninit : Statement .sUninit := ⟨_, rfl⟩

theorem sIdle : Statement .sIdle := ⟨_, rfl⟩

theorem sFault : Statement .sFault := ⟨_, rfl⟩

theorem sIRsta : Statement .sIRsta := ⟨_, rfl⟩

theorem sIRstr : Statement .sIRstr := ⟨_, rfl⟩

theorem sISel : Statement .sISel := ⟨_, rfl⟩

theorem sIDrain : Statement .sIDrain := ⟨_, rfl⟩

theorem sICheck : Statement .sICheck := ⟨_, rfl⟩

theorem sXPad : Statement .sXPad := ⟨_, rfl⟩

theorem sXDesel1 : Statement .sXDesel1 := ⟨_, rfl⟩

theorem sXSel1 : Statement .sXSel1 := ⟨_, rfl⟩

theorem sXTx : Statement .sXTx := ⟨_, rfl⟩

theorem sXDesel2 : Statement .sXDesel2 := ⟨_, rfl⟩

theorem sXSel2 : Statement .sXSel2 := ⟨_, rfl⟩

theorem sXWait1 : Statement .sXWait1 := ⟨_, rfl⟩

theorem sXRx : Statement .sXRx := ⟨_, rfl⟩

theorem sXDesel3 : Statement .sXDesel3 := ⟨_, rfl⟩

theorem sXWait2 : Statement .sXWait2 := ⟨_, rfl⟩

theorem sXClean : Statement .sXClean := ⟨_, rfl⟩

theorem phaseReserved19 : Statement .phaseReserved19 := ⟨_, rfl⟩

theorem phaseReserved20 (pp : BitVec 2) : Statement (.phaseReserved20 pp) := ⟨_, rfl⟩

theorem phaseReserved24 (ppp : BitVec 3) : Statement (.phaseReserved24 ppp) := ⟨_, rfl⟩

theorem rsta : Statement .rsta := ⟨_, rfl⟩

theorem rstr : Statement .rstr := ⟨_, rfl⟩

theorem sel : Statement .sel := ⟨_, rfl⟩

theorem desel : Statement .desel := ⟨_, rfl⟩

theorem sample : Statement .sample := ⟨_, rfl⟩

theorem xchg (u : XUnit) : Statement (.xchg u) := ⟨_, rfl⟩

theorem rd : Statement .rd := ⟨_, rfl⟩

theorem primReserved : Statement .primReserved := ⟨_, rfl⟩

theorem hardReset : Statement .hardReset := ⟨_, rfl⟩

theorem toggle : Statement .toggle := ⟨_, rfl⟩

theorem waitrdy : Statement .waitrdy := ⟨_, rfl⟩

theorem padEven (c : Bytes) : Statement (.padEven c) := ⟨_, rfl⟩

theorem padOdd (c : Bytes) : Statement (.padOdd c) := ⟨_, rfl⟩

theorem pack (f : Bytes) (k : Nat) : Statement (.pack f k) := ⟨_, rfl⟩

theorem frame (c : Bytes) : Statement (.frame c) := ⟨_, rfl⟩

theorem swap (w : XUnit) : Statement (.swap w) := ⟨_, rfl⟩

theorem filt (u : XUnit) : Statement (.filt u) := ⟨_, rfl⟩

theorem acc (raw : Bytes) (w : XUnit) : Statement (.acc raw w) := ⟨_, rfl⟩

theorem trimi (b : Bytes) : Statement (.trimi b) := ⟨_, rfl⟩

theorem trimh (b : Bytes) : Statement (.trimh b) := ⟨_, rfl⟩

theorem trimp (b : Bytes) : Statement (.trimp b) := ⟨_, rfl⟩

theorem clean (raw : Bytes) : Statement (.clean raw) := ⟨_, rfl⟩

theorem check (raw : Bytes) : Statement (.check raw) := ⟨_, rfl⟩

theorem errNone : Statement .errNone := ⟨_, rfl⟩

theorem fInit : Statement .fInit := ⟨_, rfl⟩

theorem fTimeout : Statement .fTimeout := ⟨_, rfl⟩

theorem fOverflow : Statement .fOverflow := ⟨_, rfl⟩

end Sys2Proof.Laws.Selector
end

