-- ==== Sys2Proof/Laws/Step.lean ====
section
/-! SUPPORT. What a step can do, and how steps compose. -/

namespace Sys2Proof.Machine

/-- The row a phase performs (rule R38): the operation its word decodes to. -/
def phaseRow : Phase → Instr
  | .uninit => .sUninit
  | .idle => .sIdle
  | .fault => .sFault
  | .iRsta => .sIRsta
  | .iRstr => .sIRstr
  | .iSel => .sISel
  | .iDrain => .sIDrain
  | .iCheck => .sICheck
  | .xPad => .sXPad
  | .xDesel1 => .sXDesel1
  | .xSel1 => .sXSel1
  | .xTx => .sXTx
  | .xDesel2 => .sXDesel2
  | .xSel2 => .sXSel2
  | .xWait1 => .sXWait1
  | .xRx => .sXRx
  | .xDesel3 => .sXDesel3
  | .xWait2 => .sXWait2
  | .xClean => .sXClean
  | .reserved k =>
    if k.val = 0 then .phaseReserved19
    else if k.val ≤ 4 then .phaseReserved20 (BitVec.ofNat 2 (k.val - 1))
    else .phaseReserved24 (BitVec.ofNat 3 (k.val - 5))

/-- Every phase's word decodes to its row (rule R88). -/
theorem decode_phaseWord_row (p : Phase) : decode (phaseWord p) = .ok (phaseRow p) := by
  cases p with
  | reserved k => revert k; decide
  | _ => rfl

theorem step_of_fetch_reset (s t : State) (h : fetch s = .reset t) : step s = .next t := by
  simp [step, h]

theorem step_of_decode (s t : State) (w : Bytes) (i : Instr) (h : fetch s = .word w t)
    (hd : decode w = .ok i) : step s = exec i t := by
  simp [step, h, hd]

/-- With nothing pending from outside, the block performs its phase (rule R38). -/
theorem step_of_inbox_nil (s : State) (h : s.inbox = []) : step s = exec (phaseRow s.phase) s :=
  step_of_decode s s _ _ (by simp [fetch, h]) (decode_phaseWord_row s.phase)

theorem step_of_inbox_run (s : State) (rest : List Event) (h : s.inbox = .run :: rest) :
    step s = exec (phaseRow s.phase) { s with inbox := rest } :=
  step_of_decode s _ _ _ (by simp [fetch, h]) (decode_phaseWord_row s.phase)

theorem step_of_inbox_word (s : State) (w : Bytes) (i : Instr) (rest : List Event)
    (h : s.inbox = .word w :: rest) (hd : decode w = .ok i) :
    step s = exec i { s with inbox := rest } :=
  step_of_decode s _ _ _ (by simp [fetch, h]) hd

theorem step_of_inbox_blockReset (s : State) (rest : List Event)
    (h : s.inbox = .blockReset :: rest) : step s = .next (blockReset { s with inbox := rest }) :=
  step_of_fetch_reset s _ (by simp [fetch, h])

/-- A word the host may present is an INIT or an EXEC. -/
theorem hostLegal_word (w : Bytes) (h : (Event.word w).hostLegal = true) :
    decode w = .ok .init ∨ ∃ c, decode w = .ok (.exec c) := by
  unfold Event.hostLegal at h
  cases hd : decode w with
  | error e => simp [hd] at h
  | ok i => cases i <;> simp_all

/-- The inversion of `step` for a host that does what it may do: block reset, an offer, or the
block's own phase, each from the state with that event taken. -/
theorem step_cases (s : State) (hl : ∀ e ∈ s.inbox, e.hostLegal = true) :
    (∃ rest, s.inbox = .blockReset :: rest ∧
      step s = .next (blockReset { s with inbox := rest })) ∨
    (∃ w rest, s.inbox = .word w :: rest ∧ step s = execInit { s with inbox := rest }) ∨
    (∃ w rest c, s.inbox = .word w :: rest ∧ step s = execExec c { s with inbox := rest }) ∨
    (∃ rest, (s.inbox = [] ∧ rest = [] ∨ s.inbox = .run :: rest) ∧
      step s = exec (phaseRow s.phase) { s with inbox := rest }) := by
  cases hi : s.inbox with
  | nil =>
    refine .inr (.inr (.inr ⟨[], .inl ⟨rfl, rfl⟩, ?_⟩))
    rw [step_of_inbox_nil s hi]
    cases s; simp_all
  | cons e rest =>
    cases e with
    | run => exact .inr (.inr (.inr ⟨rest, .inr rfl, step_of_inbox_run s rest hi⟩))
    | blockReset => exact .inl ⟨rest, rfl, step_of_inbox_blockReset s rest hi⟩
    | word w =>
      have hw := hostLegal_word w (hl _ (by simp [hi]))
      rcases hw with hd | ⟨c, hd⟩
      · exact .inr (.inl ⟨w, rest, rfl, step_of_inbox_word s w _ rest hi hd⟩)
      · exact .inr (.inr (.inl ⟨w, rest, c, rfl, step_of_inbox_word s w _ rest hi hd⟩))

/-- The same inversion without a block reset: an offer or the block's own phase, each from the state
with the first event taken. -/
theorem step_cases_without_reset (s : State) (hl : ∀ e ∈ s.inbox, e.hostLegal = true)
    (hb : s.inbox.head? ≠ some .blockReset) :
    (∃ op, step s = exec op { s with inbox := s.inbox.tail } ∧
      (op = .init ∨ ∃ c, op = .exec c)) ∨
    step s = exec (phaseRow s.phase) { s with inbox := s.inbox.tail } := by
  rcases step_cases s hl with ⟨r, hi, q⟩ | ⟨w, r, hi, q⟩ | ⟨w, r, c, hi, q⟩ | ⟨r, hi, q⟩
  · simp [hi] at hb
  · exact .inl ⟨.init, by simp [q, hi, exec], .inl rfl⟩
  · exact .inl ⟨.exec c, by simp [q, hi, exec], .inr ⟨c, rfl⟩⟩
  · rcases hi with ⟨hi, rfl⟩ | hi <;> exact .inr (by simp [q, hi])

/-- What an INIT offered can do (rule R150). -/
theorem execInit_cases (s : State) :
    (∃ r, execInit s = .next (refuse r s)) ∨
    ((s.phase = .uninit ∨ s.phase = .idle) ∧ execInit s = .next (acceptInit s)) := by
  unfold execInit
  cases h : refusalOf none s with
  | some r => exact .inl ⟨r, rfl⟩
  | none => exact .inr ⟨by simpa using (refusalOf_eq_none_iff _ _).1 h, rfl⟩

/-- What an EXEC offered can do (rule R150). -/
theorem execExec_cases (c : Bytes) (s : State) :
    (∃ r, execExec c s = .next (refuse r s)) ∨
    (s.phase = .idle ∧ overCmdMax s.cfg c = false ∧ execExec c s = .next (acceptExec c s)) := by
  unfold execExec
  cases h : refusalOf (some c) s with
  | some r => exact .inl ⟨r, rfl⟩
  | none =>
    have := (refusalOf_eq_none_iff _ _).1 h
    simp only [reduceCtorEq, false_and, Option.some.injEq, exists_eq_left', false_or] at this
    exact .inr ⟨this.1, this.2, rfl⟩

/-- A reserved phase has no next state (rule R93). -/
theorem exec_reserved_ne_next (k : Fin 13) (u t : State) :
    exec (phaseRow (.reserved k)) u ≠ .next t := by
  intro h; revert h; fin_cases k <;> (intro h; cases h)

/-! ### Runs -/

@[simp] theorem reaches_zero (s t : State) : Reaches 0 s t ↔ s = t := by
  constructor
  · intro h; exact Host.Outcome.next.inj h
  · rintro rfl; rfl

theorem reaches_succ (k : Nat) (s u t : State) (h : step s = .next u) (hr : Reaches k u t) :
    Reaches (k + 1) s t := by
  unfold Reaches at *
  simp only [Host.Core.run]
  have : Sys2Proof.core.step s = .next u := h
  rw [this]
  exact hr

theorem reaches_one (s t : State) (h : step s = .next t) : Reaches 1 s t :=
  reaches_succ 0 s t t h ((reaches_zero t t).2 rfl)

theorem reaches_trans (j k : Nat) (s u t : State) (h : Reaches j s u) (hr : Reaches k u t) :
    Reaches (j + k) s t := by
  induction j generalizing s with
  | zero => rw [reaches_zero] at h; subst h; simpa using hr
  | succ j ih =>
    unfold Reaches at h
    simp only [Host.Core.run] at h
    cases hs : Sys2Proof.core.step s with
    | next v =>
      rw [hs] at h
      rw [Nat.add_right_comm]
      exact reaches_succ _ s v t hs (ih v h)
    | fault r => rw [hs] at h; simp at h
    | refused r => rw [hs] at h; simp at h

/-! ### What the module sees of the lines -/

/-- One more item of the trace drives the lines from the levels already known. -/
@[simp] theorem lineLevels_append_one (tr : List TraceItem) (a : TraceItem) :
    lineLevels (tr ++ [a]) = TraceItem.drive (lineLevels tr) a := by
  simp [lineLevels]

/-- The falls of a block reset take the levels of the lines to 0 (rules R30, R53). -/
theorem lineLevels_append_resetFalls (s : State) (h : TraceShowsLines s) :
    lineLevels (s.trace ++ resetFalls s) = (false, false) := by
  unfold TraceShowsLines at h
  cases hc : s.cs <;> cases hr : s.rst <;> simp_all [resetFalls, TraceItem.drive]

/-- The falls of a block reset are no port actions (rule R220). -/
@[simp] theorem portTrace_blockReset (s : State) : portTrace (blockReset s) = portTrace s := by
  simp only [portTrace, blockReset_trace, List.filter_append, resetFalls]
  split <;> simp [TraceItem.isPortAction]

end Sys2Proof.Machine
end

