-- ==== Sys2Proof/Tests/Slice0.lean ====
section
/-! SUPPORT. Small tests. Expected results are those of `95_test_vectors.md` (named `V-...`), of the
tables of `30_encoding.md`, or worked by hand from the rule cited. The binding is `B_REF` (rule R22)
unless a test says otherwise. -/

namespace Sys2Proof.Tests

open Sys2Proof Sys2Proof.Machine

/-- The reset state under `B_REF`, in the phase `p`. -/
def at_ (p : Phase) : State := { State.reset with cfg := Params.bRef, phase := p }

/-- The state after one step, if there is one. -/
def after (s : State) : Option State :=
  match step s with
  | .next t => some t
  | _ => none

/-- The state after one operation, if there is one. -/
def ran (i : Instr) (s : State) : Option State :=
  match exec i s with
  | .next t => some t
  | _ => none

/-- The decoded operation, if there is one. -/
def dec (w : Bytes) : Option Instr :=
  match decode w with
  | .ok i => some i
  | .error _ => none

/-- `B_REF` with `TIMEOUT_POLLS = 3`. -/
def threePolls : Params := { Params.bRef with timeoutPred := some 2 }

/-- `B_REF` with `N_RAW_MAX = 4` and `N_CMD_MAX = 2`. -/
def small : Params := { Params.bRef with nRawMax := some 4, nCmdMax := some 2 }

/-! ### Well-formedness -/

/-- PAD.EVEN refuses an odd command (rule R91). -/
theorem test_wf_padEven : (Instr.padEven [0x41]).wf = false := by decide

/-- PAD.ODD refuses an even command (rule R91). -/
theorem test_wf_padOdd : (Instr.padOdd []).wf = false := by decide

/-- PACK refuses a frame of odd length (rule R101). -/
theorem test_wf_pack_odd_frame : (Instr.pack [0x41, 0x42, 0x43] 0).wf = false := by decide

/-- PACK refuses the index after the last (rule R101). -/
theorem test_wf_pack_index : (Instr.pack [0x41, 0x42, 0x0D, 0x0A] 2).wf = false := by decide

/-- The last index is well formed (rule R101). -/
theorem test_wf_pack_last : (Instr.pack [0x41, 0x42, 0x0D, 0x0A] 1).wf = true := by decide

/-! ### Decoding: one word for every constructor -/

/-- The table of rule R88. -/
theorem test_decode_phases :
    [dec [0, 0], dec [0, 1], dec [0, 2], dec [0, 3], dec [0, 4], dec [0, 5], dec [0, 6],
      dec [0, 7], dec [0, 8], dec [0, 9]] =
    [some .sUninit, some .sIdle, some .sFault, some .sIRsta, some .sIRstr, some .sISel,
      some .sIDrain, some .sICheck, some .sXPad, some .sXDesel1] ∧
    [dec [0, 10], dec [0, 11], dec [0, 12], dec [0, 13], dec [0, 14], dec [0, 15], dec [0, 16],
      dec [0, 17], dec [0, 18]] =
    [some .sXSel1, some .sXTx, some .sXDesel2, some .sXSel2, some .sXWait1, some .sXRx,
      some .sXDesel3, some .sXWait2, some .sXClean] := by decide

/-- The reserved codes 10011, 101pp and 11ppp (rules R88, R93), and 32, which has six bits. -/
theorem test_decode_reserved :
    dec [0, 0b10011] = some .phaseReserved19 ∧
    dec [0, 0b10110] = some (.phaseReserved20 0b10) ∧
    dec [0, 0b11101] = some (.phaseReserved24 0b101) ∧
    decode [0, 32] = .error (.badCode 0 32) := ⟨by decide, by decide, by decide, rfl⟩

/-- The table of rule R87; INIT has no operand. -/
theorem test_decode_hostOps :
    dec [1, 0] = some .init ∧ dec [1, 1, 0x41, 0x42] = some (.exec [0x41, 0x42]) ∧
    dec [1, 1] = some (.exec []) ∧ decode [1, 0, 0x41] = .error (.badLength 1) :=
  ⟨by decide, by decide, by decide, rfl⟩

/-- The table of rule R89; an XCHG carries `F-TXW`, bits 15:8 first (rule R83). -/
theorem test_decode_prims :
    [dec [2, 0], dec [2, 1], dec [2, 2], dec [2, 3], dec [2, 4], dec [2, 5, 0x42, 0x41],
      dec [2, 6], dec [2, 7]] =
    [some .rsta, some .rstr, some .sel, some .desel, some .sample, some (.xchg ⟨0x42, 0x41⟩),
      some .rd, some .primReserved] := by decide

/-- The composites of rules R137 to R139. -/
theorem test_decode_composites :
    [dec [3, 0], dec [3, 1], dec [3, 2]] = [some .hardReset, some .toggle, some .waitrdy] := by
  decide

/-- The framer's rows (rules R81, R82, R83, R91). -/
theorem test_decode_framer :
    dec [4, 0, 0x41, 0x42] = some (.padEven [0x41, 0x42]) ∧
    dec [4, 1, 0x41] = some (.padOdd [0x41]) ∧
    dec [5, 0x41] = some (.frame [0x41]) ∧
    dec [6, 1, 0, 0x41, 0x42, 0x0D, 0x0A] = some (.pack [0x41, 0x42, 0x0D, 0x0A] 1) := by decide

/-- The cleaner's rows; a unit's first byte is the byte received first (rules R84, R85, R86). -/
theorem test_decode_cleaner :
    dec [7, 0x0A, 0x0D] = some (.swap ⟨0x0A, 0x0D⟩) ∧
    dec [8, 0x0A, 0x0D, 0x41, 0x42] = some (.acc [0x41, 0x42] ⟨0x0A, 0x0D⟩) ∧
    dec [9, 0x15, 0x15] = some (.filt ⟨0x15, 0x15⟩) ∧
    [dec [10, 0x15], dec [11, 0x0D, 0x0A], dec [12, 0x41], dec [13, 0x41], dec [14, 0x41]] =
      [some (.trimi [0x15]), some (.trimh [0x0D, 0x0A]), some (.trimp [0x41]),
        some (.clean [0x41]), some (.check [0x41])] := by decide

/-- The table of rule R90. -/
theorem test_decode_faultCodes :
    [dec [15, 0], dec [15, 1], dec [15, 2], dec [15, 3]] =
    [some .errNone, some .fInit, some .fTimeout, some .fOverflow] := by decide

/-- What the decoder refuses, by name. -/
theorem test_decode_refuses :
    decode [] = .error .empty ∧ decode [16] = .error (.unknownFormat 16) ∧
    decode [4, 1, 0x41, 0x42] = .error .parityMismatch ∧
    decode [6, 1, 0, 0x41, 0x42] = .error .packIndex ∧
    decode [0x0F, 4] = .error (.badCode 0x0F 4) := ⟨rfl, rfl, rfl, rfl, rfl⟩

/-- Bare words of the table (assumption 5): `PHASE` 01011, the match value of FILT and of TRIMH. -/
theorem test_tableWords :
    decodeTableWord 5 0b01011 = some .sXTx ∧
    decodeTableWord 16 0x1515 = some (.filt ⟨0x15, 0x15⟩) ∧
    decodeTableWord 16 0x0D0A = some (.trimh [0x0D, 0x0A]) := by decide

/-- A placed phase word is performed by the next step (assumption 6): S_I_RSTA asserts the line. -/
theorem test_placed_word_runs :
    (after (State.reset.withFetchWord 8 3)).map (fun t => (t.phase, t.rst, t.trace)) =
      some (.iRstr, true, [.rsta]) := by decide

/-! ### Host operations -/

/-- INIT clears `INIT_OK` and `DONE` (rule R150). -/
theorem test_init_accepted :
    (ran .init { at_ .idle with initOk := true, done := true }).map
      (fun t => (t.phase, t.initOk, t.done, t.reply)) =
      some (.iRsta, false, false, some .accepted) := by decide

/-- INIT while busy is refused and changes nothing else (rule R194; P5's offer). -/
theorem test_init_busy :
    (ran .init (at_ .xWait1)).map (fun t => (t.phase, t.reply)) =
      some (.xWait1, some (.refused .refBusy)) := by decide

/-- `N_CMD_MAX = 2` admits two characters and refuses three (rule R150). -/
theorem test_exec_length :
    (ran (.exec [0x41, 0x42]) { at_ .idle with cfg := small }).map (fun t => (t.phase, t.cmd)) =
      some (.xPad, [0x41, 0x42]) ∧
    (ran (.exec [0x41, 0x42, 0x43]) { at_ .idle with cfg := small }).map
      (fun t => (t.phase, t.cmd, t.reply)) =
      some (.idle, [], some (.refused .refTooLong)) := by decide

/-- V-FAULT-9: in S_FAULT an EXEC is refused as faulted; before INIT as uninitialised. -/
theorem test_exec_refused :
    (ran (.exec [0x41]) (at_ .fault)).map (·.reply) = some (some (.refused .refFaulted)) ∧
    (ran (.exec [0x41]) (at_ .uninit)).map (·.reply) = some (some (.refused .refUninit)) := by
  decide

/-! ### Phases: the single steps of `95_test_vectors.md` section 2.10 -/

/-- V-STEP-1 and V-STEP-2. -/
theorem test_step_resetLine :
    (after (at_ .iRsta)).map (fun t => (t.rst, t.phase, t.trace)) =
      some (true, .iRstr, [.rsta]) ∧
    (after { at_ .iRstr with rst := true }).map (fun t => (t.rst, t.phase, t.trace)) =
      some (false, .iSel, [.rstr]) := by decide

/-- V-STEP-3. -/
theorem test_step_iSel :
    (after { at_ .iSel with raw := [0x41, 0x42] }).map (fun t => (t.cs, t.raw, t.phase, t.trace)) =
      some (true, [], .iDrain, [.sel]) := by decide

/-- V-STEP-4. -/
theorem test_step_iDrain_keeps :
    (after { at_ .iDrain with env := ⟨[true], [⟨0x0A, 0x0D⟩], [], 0⟩ }).map
      (fun t => (t.raw, t.phase, t.trace)) =
      some ([0x0D, 0x0A], .iDrain, [.sample true, .rd 0x0A]) := by decide

/-- V-STEP-5. -/
theorem test_step_iDrain_drops :
    (after { at_ .iDrain with
      raw := [0x0D, 0x0A], env := ⟨[true], [⟨0x15, 0x15⟩], [], 0⟩ }).map
      (fun t => (t.raw, t.phase)) = some ([0x0D, 0x0A], .iDrain) := by decide

/-- V-STEP-7. -/
theorem test_step_iCheck_match :
    (after { at_ .iCheck with raw := [0x0D, 0x0A, 0x3E, 0x20] }).map
      (fun t => (t.resp, t.initOk, t.done, t.phase)) =
      some ([0x0D, 0x0A, 0x3E, 0x20], true, true, .idle) := by decide

/-- V-STEP-8. -/
theorem test_step_iCheck_fails :
    (after { at_ .iCheck with raw := [0x3E, 0x20], cs := true }).map
      (fun t => (t.resp, t.err, t.errcode, t.phase, t.cs)) =
      some ([0x3E, 0x20], true, 1, .fault, true) := by decide

/-- V-STEP-9. -/
theorem test_step_xPad :
    (after { at_ .xPad with
      cmd := [0x41, 0x42, 0x43], raw := [0x0D, 0x0A, 0x3E, 0x20], txi := 2 }).map
      (fun t => (t.txbuf, t.txi, t.raw, t.phase)) =
      some ([0x41, 0x42, 0x43, 0x0D], 0, [], .xDesel1) := by decide

/-- V-STEP-11 (the action is performed on a line already low) and V-STEP-12. -/
theorem test_step_handshake1 :
    (after (at_ .xDesel1)).map (fun t => (t.cs, t.phase, t.trace)) =
      some (false, .xSel1, [.desel]) ∧
    (after (at_ .xSel1)).map (fun t => (t.cs, t.phase, t.trace)) =
      some (true, .xTx, [.sel]) := by decide

/-- V-STEP-13: not the last word. -/
theorem test_step_xTx_first :
    (after { at_ .xTx with
      txbuf := [0x41, 0x42, 0x43, 0x0D], env := ⟨[], [], [⟨1, 2⟩], 0⟩ }).map
      (fun t => (t.txi, t.phase, t.trace, t.raw)) =
      some (1, .xTx, [.xchg ⟨0x42, 0x41⟩], []) := by decide

/-- V-STEP-14: the last word. -/
theorem test_step_xTx_last :
    (after { at_ .xTx with txbuf := [0x41, 0x42, 0x43, 0x0D], txi := 1 }).map
      (fun t => (t.txi, t.phase, t.trace)) =
      some (2, .xDesel2, [.xchg ⟨0x0D, 0x43⟩]) := by decide

/-- V-STEP-16 and V-STEP-17 (with `TOCNT` present, and with it absent). -/
theorem test_step_handshake2 :
    (after { at_ .xDesel2 with cs := true }).map (fun t => (t.cs, t.phase)) =
      some (false, .xSel2) ∧
    (after { at_ .xSel2 with cfg := threePolls, tocnt := 2 }).map
      (fun t => (t.cs, t.tocnt, t.phase)) = some (true, 0, .xWait1) ∧
    (after { at_ .xSel2 with tocnt := 2 }).map (fun t => t.tocnt) = some 2 := by decide

/-- V-STEP-18, V-STEP-19 and V-STEP-20. -/
theorem test_step_xWait1 :
    (after { at_ .xWait1 with env := ⟨[true], [], [], 0⟩ }).map (·.phase) = some .xRx ∧
    (after { at_ .xWait1 with env := ⟨[false], [], [], 0⟩ }).map (fun t => (t.phase, t.tocnt)) =
      some (.xWait1, 0) ∧
    (after { at_ .xWait1 with
      cfg := threePolls, tocnt := 1, env := ⟨[false], [], [], 0⟩ }).map
      (fun t => (t.phase, t.tocnt)) = some (.xWait1, 2) := by decide

/-- V-STEP-21: the third zero faults and `TOCNT` stays 2. -/
theorem test_step_xWait1_timeout :
    (after { at_ .xWait1 with
      cfg := threePolls, tocnt := 2, cs := true, env := ⟨[false], [], [], 0⟩ }).map
      (fun t => (t.phase, t.err, t.errcode, t.tocnt, t.cs)) =
      some (.fault, true, 2, 2, true) := by decide

/-- V-STEP-23 and V-STEP-25. -/
theorem test_step_xRx :
    (after { at_ .xRx with
      raw := [0x0D, 0x0A], env := ⟨[true], [⟨0x4B, 0x4F⟩], [], 0⟩ }).map
      (fun t => (t.raw, t.phase)) = some ([0x0D, 0x0A, 0x4F, 0x4B], .xRx) ∧
    (after { at_ .xRx with env := ⟨[false], [], [], 0⟩ }).map (fun t => (t.phase, t.trace)) =
      some (.xDesel3, [.sample false]) := by decide

/-- V-STEP-26 and V-STEP-27: a kept unit overflows and is lost, an idle unit never overflows. -/
theorem test_step_xRx_overflow :
    (after { at_ .xRx with
      cfg := small, raw := [0x0D, 0x0A, 0x4F, 0x4B], env := ⟨[true], [⟨0x0A, 0x0D⟩], [], 0⟩ }).map
      (fun t => (t.phase, t.errcode, t.raw)) =
      some (.fault, 3, [0x0D, 0x0A, 0x4F, 0x4B]) ∧
    (after { at_ .xRx with
      cfg := small, raw := [0x0D, 0x0A, 0x4F, 0x4B], env := ⟨[true], [⟨0x15, 0x15⟩], [], 0⟩ }).map
      (fun t => (t.phase, t.errcode)) = some (.xRx, 0) := by decide

/-- V-STEP-28. -/
theorem test_step_xDesel3 :
    (after { at_ .xDesel3 with cfg := threePolls, cs := true, tocnt := 1 }).map
      (fun t => (t.cs, t.tocnt, t.phase, t.trace)) =
      some (false, 0, .xWait2, [.desel]) := by decide

/-- V-STEP-29 and V-STEP-30. -/
theorem test_step_xWait2 :
    (after { at_ .xWait2 with env := ⟨[true], [], [], 0⟩ }).map (·.phase) = some .xClean ∧
    (after { at_ .xWait2 with
      cfg := threePolls, tocnt := 2, env := ⟨[false], [], [], 0⟩ }).map
      (fun t => (t.phase, t.errcode, t.cs)) = some (.fault, 2, false) := by decide

/-- V-STEP-31. -/
theorem test_step_xClean :
    (after { at_ .xClean with
      raw := [0x0D, 0x0A, 0x4F, 0x4B], resp := [0x0D, 0x0A, 0x3E, 0x20] }).map
      (fun t => (t.resp, t.done, t.phase, t.raw)) =
      some ([0x4F, 0x4B], true, .idle, [0x0D, 0x0A, 0x4F, 0x4B]) := by decide

/-- V-STEP-32. -/
theorem test_step_resting :
    after (at_ .uninit) = some (at_ .uninit) ∧ after (at_ .idle) = some (at_ .idle) ∧
    after (at_ .fault) = some (at_ .fault) := ⟨rfl, rfl, rfl⟩

/-- Rule R93: the first and the last reserved code have no step. -/
theorem test_step_reserved :
    step (at_ (.reserved 0)) = .fault (.stuckReservedPhase 19) ∧
    step (at_ (.reserved 12)) = .fault (.stuckReservedPhase 31) ∧
    exec .primReserved (at_ .idle) = .fault .stuckReservedPrimitive := ⟨rfl, rfl, rfl⟩

/-- V-RESET-3: the reset line falls by its reset value, with no port action. P3, continuation: the
module sees `CS` fall and nothing else. With both lines at 0 it sees nothing. -/
theorem test_blockReset :
    (after { at_ .iRstr with rst := true, inbox := [.blockReset] }).map
      (fun t => (t.phase, t.rst, t.cs, t.trace)) =
      some (.uninit, false, false, [.fall false true]) ∧
    (after { at_ .fault with cs := true, inbox := [.blockReset] }).map
      (fun t => (t.cs, portTrace t, t.trace)) = some (false, [], [.fall true false]) ∧
    (after { at_ .fault with inbox := [.blockReset] }).map (·.trace) = some [] := by decide

/-! ### Primitives and composites -/

/-- V-PRIM-1, 2, 3 and 5. -/
theorem test_line_primitives :
    (ran .rsta (at_ .idle)).map (·.rst) = some true ∧
    (ran .rstr { at_ .idle with rst := true }).map (·.rst) = some false ∧
    (ran .sel (at_ .idle)).map (·.cs) = some true ∧
    (ran .desel { at_ .idle with cs := true }).map (·.cs) = some false := by decide

/-- V-PRIM-7 and V-PRIM-8: the draw is the result; a read sends the padding byte (rule R136). -/
theorem test_data_primitives :
    (ran .sample { at_ .idle with env := ⟨[true, false], [], [], 0⟩ }).map
      (fun t => (t.result, t.env.d)) = some (.bit true, [false]) ∧
    (ran (.xchg ⟨0x42, 0x41⟩) { at_ .idle with env := ⟨[], [⟨1, 2⟩], [⟨3, 4⟩], 0⟩ }).map
      (fun t => (t.result, t.env.rx, t.trace)) =
      some (.unit ⟨3, 4⟩, [⟨1, 2⟩], [.xchg ⟨0x42, 0x41⟩]) ∧
    (ran .rd { at_ .idle with env := ⟨[], [⟨1, 2⟩], [⟨3, 4⟩], 0⟩ }).map
      (fun t => (t.result, t.env.txrx, t.trace)) =
      some (.unit ⟨1, 2⟩, [⟨3, 4⟩], [.rd 0x0A]) := by decide

/-- Rules R137 and R138: the order of the line writes. -/
theorem test_reset_and_toggle :
    (ran .hardReset (at_ .idle)).map (fun t => (t.rst, t.trace)) =
      some (false, [.rsta, .rstr]) ∧
    (ran .toggle (at_ .idle)).map (fun t => (t.cs, t.trace)) =
      some (true, [.desel, .sel]) := by decide

/-- Rule R139: a sample that reads 0 leaves WAITRDY to be performed again; 1 ends it, and the next one
counts from 0. -/
theorem test_waitrdy :
    (ran .waitrdy { at_ .idle with env := ⟨[false], [], [], 0⟩ }).map
      (fun t => (t.inbox, t.trace)) = some ([.word [3, 2]], [.sample false]) ∧
    (ran .waitrdy { at_ .idle with polls := 2, env := ⟨[true], [], [], 0⟩ }).map
      (fun t => (t.inbox, t.result, t.polls)) = some ([], .bit true, 0) := by decide

/-- Rules R139 and R192, `TIMEOUT_POLLS = 3`: the first zero does not fault although an EXEC left `TOCNT`
at 2; the third does. -/
theorem test_waitrdy_timeout :
    (ran .waitrdy { at_ .idle with cfg := threePolls, tocnt := 2, env := ⟨[false], [], [], 0⟩ }).map
      (fun t => (t.phase, t.polls, t.tocnt)) = some (.idle, 1, 2) ∧
    (ran .waitrdy { at_ .idle with cfg := threePolls, polls := 2, env := ⟨[false], [], [], 0⟩ }).map
      (fun t => (t.phase, t.errcode, t.polls, t.inbox)) = some (.fault, 2, 0, []) := by decide

/-! ### The framer -/

/-- V-PAD-1 and V-PAD-5. -/
theorem test_pad_rows :
    (ran (.padEven []) (at_ .idle)).map (·.result) = some (.bytes [0x0D, 0x0A]) ∧
    (ran (.padOdd [0x41, 0x54, 0x0D]) (at_ .idle)).map (·.result) =
      some (.bytes [0x41, 0x54, 0x0D, 0x0D]) := by decide

/-- V-PACK-1 and V-PACK-2. -/
theorem test_pack :
    (ran (.pack [0x41, 0x42, 0x0D, 0x0A] 0) (at_ .idle)).map (·.result) =
      some (.unit ⟨0x42, 0x41⟩) ∧
    (ran (.pack [0x41, 0x42, 0x0D, 0x0A] 1) (at_ .idle)).map (·.result) =
      some (.unit ⟨0x0A, 0x0D⟩) := by decide

/-- V-PAD-4 and V-PAD-7: the units of a frame in order. -/
theorem test_frame :
    (ran (.frame [0x41, 0x42, 0x43]) (at_ .idle)).map (·.result) =
      some (.units [⟨0x42, 0x41⟩, ⟨0x0D, 0x43⟩]) ∧
    (ran (.frame [0x80, 0xFF]) (at_ .idle)).map (·.result) =
      some (.units [⟨0xFF, 0x80⟩, ⟨0x0A, 0x0D⟩]) := by decide

/-- Rule R63: the byte that goes first is the more significant. -/
theorem test_unitWord : unitWord ⟨0x42, 0x41⟩ = 0x4241 := by decide

/-! ### The cleaner -/

/-- V-SWAP-1; V-FILT-1 and V-FILT-3. -/
theorem test_swap_filt :
    (ran (.swap ⟨0x0A, 0x0D⟩) (at_ .idle)).map (·.result) = some (.unit ⟨0x0D, 0x0A⟩) ∧
    (ran (.filt ⟨0x15, 0x15⟩) (at_ .idle)).map (·.result) = some (.kept false) ∧
    (ran (.filt ⟨0x15, 0x20⟩) (at_ .idle)).map (·.result) = some (.kept true) := by decide

/-- One unit kept, swapped (rule R112), and V-ACC-5: idle bytes that straddle two units stay. -/
theorem test_acc :
    (ran (.acc [0x0D, 0x0A] ⟨0x4B, 0x4F⟩) (at_ .idle)).map (·.result) =
      some (.bytes [0x0D, 0x0A, 0x4F, 0x4B]) ∧
    accAll Params.bRef [⟨0x15, 0x41⟩, ⟨0x42, 0x15⟩] = [0x41, 0x15, 0x15, 0x42] := by decide

/-- V-TRIMI-6 and V-TRIMI-3. -/
theorem test_trimi :
    (ran (.trimi [0x41, 0x15, 0x42, 0x15, 0x15, 0x15]) (at_ .idle)).map (·.result) =
      some (.bytes [0x41, 0x15, 0x42]) ∧
    (ran (.trimi [0x15, 0x15, 0x15, 0x15]) (at_ .idle)).map (·.result) = some (.bytes []) := by
  decide

/-- V-TRIMH-7 and V-TRIMH-5. -/
theorem test_trimh :
    (ran (.trimh [0x0D, 0x0A, 0x0D, 0x0A, 0x58]) (at_ .idle)).map (·.result) =
      some (.bytes [0x0D, 0x0A, 0x58]) ∧
    (ran (.trimh [0x0A, 0x0D, 0x4F, 0x4B]) (at_ .idle)).map (·.result) =
      some (.bytes [0x0A, 0x0D, 0x4F, 0x4B]) := by decide

/-- V-TRIMP-1 and V-TRIMP-3. -/
theorem test_trimp :
    (ran (.trimp [0x0D, 0x0A, 0x4F, 0x4B, 0x0D, 0x0A, 0x3E, 0x20]) (at_ .idle)).map (·.result) =
      some (.bytes []) ∧
    (ran (.trimp [0x4F, 0x4B, 0x0D, 0x0A, 0x3E, 0x20]) (at_ .idle)).map (·.result) =
      some (.bytes [0x4F, 0x4B, 0x0D, 0x0A, 0x3E, 0x20]) := by decide

/-- V-CLEAN-7 and V-CLEAN-9. -/
theorem test_clean :
    (ran (.clean [0x0D, 0x0A, 0x4F, 0x4B, 0x0D, 0x0A, 0x3E, 0x20]) (at_ .idle)).map (·.result) =
      some (.bytes [0x4F, 0x4B, 0x0D, 0x0A, 0x3E, 0x20]) ∧
    (ran (.clean [0x0D, 0x0A, 0x41, 0x0D, 0x0A, 0x4F, 0x4B, 0x0D, 0x0A, 0x3E, 0x20])
      (at_ .idle)).map (·.result) = some (.bytes [0x41]) := by decide

/-- V-CHECK-2 and V-CHECK-3. -/
theorem test_check :
    (ran (.check [0x0D, 0x0A, 0x3E, 0x20, 0x15]) (at_ .idle)).map (·.result) =
      some (.checked [0x0D, 0x0A, 0x3E, 0x20] true) ∧
    (ran (.check [0x3E, 0x20]) (at_ .idle)).map (·.result) =
      some (.checked [0x3E, 0x20] false) := by decide

/-! ### Fault codes -/

/-- The codes of rule R90, each under a bound that lets it exist; the entry keeps `DONE` (rule R198). -/
theorem test_fault_codes :
    (ran .errNone (at_ .idle)).map (fun t => (t.err, t.errcode, t.phase)) =
      some (false, 0, .idle) ∧
    (ran .fInit { at_ .iCheck with done := true }).map
      (fun t => (t.err, t.errcode, t.phase, t.done)) = some (true, 1, .fault, true) ∧
    (ran .fTimeout { at_ .xWait1 with cfg := threePolls }).map (fun t => (t.errcode, t.raised)) =
      some (2, some ⟨.fTimeout, .xWait1⟩) ∧
    (ran .fOverflow { at_ .xRx with cfg := small }).map (·.errcode) = some 3 := by decide

/-- Rules R192 and R193: under `B_REF` both bounds are `INF`, and neither fault exists. -/
theorem test_fault_codes_absent :
    (ran .fTimeout (at_ .xWait1)).map (fun t => (t.err, t.phase)) = some (false, .xWait1) ∧
    (ran .fOverflow (at_ .xRx)).map (fun t => (t.err, t.phase)) = some (false, .xRx) := by decide

/-! ### Witnesses: states and operands that meet the hypotheses of each statement -/

/-- A draw list of one sample. -/
def drawing (d : Bool) (rx : List XUnit) (s : State) : State := { s with env := ⟨[d], rx, [], 0⟩ }

theorem test_witness_StepRunsTheDecodedOperation :
    fetch (at_ .xTx) = .word [0x00, 11] (at_ .xTx) ∧ decode [0x00, 11] = .ok .sXTx ∧
    (at_ .xTx).inbox = [] ∧
    ({ at_ .xTx with inbox := [.run] } : State).inbox = .run :: [] ∧
    ({ at_ .idle with inbox := [.word [0x01, 0]] } : State).inbox = .word [0x01, 0] :: [] :=
  ⟨rfl, rfl, rfl, rfl, rfl⟩

/-- The last index of a frame of two words, and an operand with no condition. -/
theorem test_witness_DecodeOfEncodeIsIdentity :
    (Instr.pack [0x41, 0x42, 0x0D, 0x0A] 1).wf = true ∧ (Instr.phaseReserved24 7).wf = true ∧
    (Instr.padEven []).wf = true ∧ (Instr.padOdd [0x41]).wf = true := by decide

theorem test_witness_EncodeOfDecodeIsIdentity :
    decode [0x06, 1, 0, 0x41, 0x42, 0x0D, 0x0A] = .ok (.pack [0x41, 0x42, 0x0D, 0x0A] 1) ∧
    decode [0x00, 31] = .ok (.phaseReserved24 7) := ⟨rfl, rfl⟩

/-- V-RESET-1, V-RESET-2 and V-RESET-3: no line, `CS` and `RST` at 1 before the reset. -/
theorem test_witness_BlockResetFromAnyState :
    (∃ s : State, s.inbox = .blockReset :: [] ∧ s.cs = false ∧ s.rst = false) ∧
    ({ at_ .xTx with cs := true, txi := 1, inbox := [.blockReset, .run] } : State).inbox =
      .blockReset :: [.run] ∧
    ({ at_ .iRstr with rst := true, inbox := [.blockReset] } : State).rst = true :=
  ⟨⟨{ at_ .fault with inbox := [.blockReset] }, rfl, rfl, rfl⟩, rfl, rfl⟩

/-- Both phases of INIT; EXEC without a bound, and at a bound of 2 exactly. -/
theorem test_witness_OffersAccepted :
    (at_ .uninit).phase = .uninit ∧ (at_ .idle).phase = .idle ∧
    (∀ n, (at_ .idle).cfg.nCmdMax = some n → ([0x41, 0x42, 0x43] : Bytes).length ≤ n) ∧
    (∀ n, ({ at_ .idle with cfg := small } : State).cfg.nCmdMax = some n →
      ([0x41, 0x42] : Bytes).length ≤ n) :=
  ⟨rfl, rfl, by decide, by decide⟩

theorem test_witness_OffersRefusedInOrder :
    (at_ .fault).phase = .fault ∧
    ((at_ .iRsta).phase ≠ .uninit ∧ (at_ .iRsta).phase ≠ .idle ∧ (at_ .iRsta).phase ≠ .fault) ∧
    ((at_ .xClean).phase ≠ .uninit ∧ (at_ .xClean).phase ≠ .idle ∧
      (at_ .xClean).phase ≠ .fault) ∧
    (at_ .uninit).phase = .uninit ∧
    ({ at_ .idle with cfg := small } : State).cfg.nCmdMax = some 2 ∧
    2 < ([0x41, 0x42, 0x43] : Bytes).length := by decide

/-- Rule R45: the first phase that does not rest, and one that rests. -/
theorem test_host_reads :
    (hostStatus (at_ .idle)).busy = false ∧ (hostStatus (at_ .iRsta)).busy = true ∧
    hostResp { at_ .xTx with resp := [0x4F, 0x4B] } = [0x4F, 0x4B] := by decide

/-- An EXEC accepted over an old result; a timeout; the ends of an INIT and of an EXEC; F_INIT. -/
theorem test_witness_ResponseIsStaleUntilTheEnd :
    (∀ e ∈ [Event.word [0x01, 1, 0x41]], e.hostLegal = true) ∧
    [Event.word [0x01, 1, 0x41]].head? ≠ some .blockReset ∧
    (∃ t, step { at_ .idle with resp := [0x4F], inbox := [.word [0x01, 1, 0x41]] } = .next t ∧
      (hostStatus t).busy = true ∧ hostResp t = [0x4F]) ∧
    (∃ t, step (drawing false [] { at_ .xWait1 with cfg := threePolls, tocnt := 2 }) = .next t ∧
      t.phase = .fault ∧ t.errcode = 2) ∧
    (∃ t, step { at_ .iCheck with raw := [0x0D, 0x0A, 0x3E, 0x20] } = .next t ∧ t.phase = .idle) ∧
    (∃ t, step (at_ .xClean) = .next t ∧ t.phase = .idle) ∧
    (∃ t, step (at_ .iCheck) = .next t ∧ t.phase = .fault) :=
  ⟨by decide, by decide, ⟨_, rfl, by decide, by decide⟩, ⟨_, rfl, by decide, by decide⟩,
    ⟨_, rfl, by decide⟩, ⟨_, rfl, by decide⟩, _, rfl, by decide⟩

theorem test_witness_ReservedCodesAreStuck :
    (at_ (.reserved 0)).inbox = [] ∧ (at_ (.reserved 0)).phase = .reserved 0 ∧
    (at_ (.reserved 12)).phase = .reserved 12 := ⟨rfl, rfl, rfl⟩

/-- The end of the drain; an idle unit; a kept unit without a bound, one that ends exactly at the bound
of 4, and one over it. -/
theorem test_witness_DrainTurn :
    nextBit (drawing false [] (at_ .iDrain)) = false ∧
    nextBit (drawing true [⟨0x15, 0x15⟩] (at_ .iDrain)) = true ∧
    nextRx (drawing true [⟨0x15, 0x15⟩] (at_ .iDrain)) = ⟨0x15, 0x15⟩ ∧
    nextRx (drawing true [⟨0x0A, 0x0D⟩] (at_ .iDrain)) ≠ ⟨0x15, 0x15⟩ ∧
    (∀ n, (at_ .iDrain).cfg.nRawMax = some n → (at_ .iDrain).raw.length + 2 ≤ n) ∧
    (∀ n, ({ at_ .iDrain with cfg := small, raw := [0x0D, 0x0A] } : State).cfg.nRawMax = some n →
      ([0x0D, 0x0A] : Bytes).length + 2 ≤ n) ∧
    small.nRawMax = some 4 ∧ 4 < ([0x0D, 0x0A, 0x4F, 0x4B] : Bytes).length + 2 :=
  ⟨rfl, rfl, rfl, by decide, by decide, by decide, by decide, by decide⟩

theorem test_witness_ReceiveTurn :
    nextBit (drawing false [] (at_ .xRx)) = false ∧
    nextBit (drawing true [⟨0x15, 0x15⟩] (at_ .xRx)) = true ∧
    nextRx (drawing true [⟨0x15, 0x15⟩] (at_ .xRx)) = ⟨0x15, 0x15⟩ ∧
    nextRx (drawing true [⟨0x15, 0x20⟩] (at_ .xRx)) ≠ ⟨0x15, 0x15⟩ ∧
    (∀ n, (at_ .xRx).cfg.nRawMax = some n → (at_ .xRx).raw.length + 2 ≤ n) ∧
    (∀ n, ({ at_ .xRx with cfg := small, raw := [0x0D, 0x0A] } : State).cfg.nRawMax = some n →
      ([0x0D, 0x0A] : Bytes).length + 2 ≤ n) ∧
    small.nRawMax = some 4 ∧ 4 < ([0x0D, 0x0A, 0x4F, 0x4B] : Bytes).length + 2 :=
  ⟨rfl, rfl, rfl, by decide, by decide, by decide, by decide, by decide⟩

/-- V-CHECK-2 and V-CHECK-3. -/
theorem test_witness_CheckPhase :
    trimI Params.bRef [0x0D, 0x0A, 0x3E, 0x20, 0x15] = Params.bRef.idlePrompt ∧
    trimI Params.bRef [0x3E, 0x20] ≠ Params.bRef.idlePrompt := by decide

theorem test_witness_PromptEndingInIdleNeverMatches :
    ({ Params.bRef with idlePromptTail := [0x15] } : Params).idlePrompt.getLast? =
      some ({ Params.bRef with idlePromptTail := [0x15] } : Params).idleByte := by decide

theorem test_witness_PhasesThatEnterAWait :
    (at_ .xSel2).cfg.timeoutPolls = none ∧ threePolls.timeoutPolls = some 3 := by decide

/-- States that meet the invariant in the phases named. -/
theorem test_witness_HandshakePhases :
    BlockInv { at_ .xDesel2 with txbuf := [0x0D, 0x0A], txi := 1, cs := true, initOk := true } := by
  constructor <;> decide

/-- The last word of a frame and a word before it. -/
theorem test_witness_TransmitPhase :
    ([0x41, 0x42, 0x0D, 0x0A] : Bytes)[2 * 1]? = some 0x0D ∧
    ([0x41, 0x42, 0x0D, 0x0A] : Bytes)[2 * 1 + 1]? = some 0x0A ∧
    1 + 1 = ([0x41, 0x42, 0x0D, 0x0A] : Bytes).length / 2 ∧
    ([0x41, 0x42, 0x0D, 0x0A] : Bytes)[2 * 0]? = some 0x41 ∧
    ([0x41, 0x42, 0x0D, 0x0A] : Bytes)[2 * 0 + 1]? = some 0x42 ∧
    0 + 1 ≠ ([0x41, 0x42, 0x0D, 0x0A] : Bytes).length / 2 := by decide

/-- A sample of 1; of 0 with no bound; of 0 before and at a bound of 3; the invariant in each wait. -/
theorem test_witness_WaitTurns_inv :
    BlockInv { at_ .xWait1 with txbuf := [0x0D, 0x0A], txi := 1, cs := true, initOk := true } ∧
    BlockInv { at_ .xWait2 with txbuf := [0x0D, 0x0A], txi := 1, initOk := true } := by
  constructor <;> constructor <;> decide

theorem test_witness_WaitTurns :
    nextBit (drawing true [] (at_ .xWait1)) = true ∧
    nextBit (drawing false [] (at_ .xWait1)) = false ∧
    (at_ .xWait1).cfg.timeoutPolls = none ∧ threePolls.timeoutPolls = some 3 ∧
    1 + 1 ≠ 3 ∧ 2 + 1 = 3 := by decide

/-- Counts of 1 and 2 in `polls` under a bound of 3. -/
theorem test_witness_WaitReadyTurn :
    nextBit (drawing true [] (at_ .idle)) = true ∧
    nextBit (drawing false [] (at_ .idle)) = false ∧
    (at_ .idle).cfg.timeoutPolls = none ∧ threePolls.timeoutPolls = some 3 ∧
    1 + 1 ≠ 3 ∧ 2 + 1 = 3 := by decide

/-- WAITRDY presented to a block at rest in whose `TOCNT` an EXEC left 2, with three zeros to draw. -/
def waitPresented : State :=
  { at_ .idle with
    cfg := threePolls, tocnt := 2, inbox := [.word [0x03, 2]],
    env := ⟨[false, false, false], [], [], 0⟩ }

theorem test_witness_WaitReadyFaultsAtItsPolls :
    waitPresented.inbox = .word [0x03, 2] :: [] ∧ waitPresented.polls = 0 ∧
    waitPresented.cfg.timeoutPolls = some 3 ∧
    waitPresented.env.d = List.replicate 3 false ++ [] := by decide

/-- Both bounds finite, and both `INF`. -/
theorem test_witness_FaultCodeRows :
    ({ at_ .xWait1 with cfg := threePolls } : State).cfg.timeoutPolls = some 3 ∧
    (at_ .xWait1).cfg.timeoutPolls = none ∧
    ({ at_ .xRx with cfg := small } : State).cfg.nRawMax = some 4 ∧
    (at_ .xRx).cfg.nRawMax = none := by decide

/-- Listed draws, and none. -/
theorem test_witness_DataPrimitives :
    ({ at_ .idle with env := ⟨[true], [⟨1, 2⟩], [⟨3, 4⟩], 0⟩ } : State).env =
      ⟨true :: [], ⟨1, 2⟩ :: [], ⟨3, 4⟩ :: [], 0⟩ ∧
    (at_ .idle).env.d = [] ∧ (at_ .idle).env.txrx = [] ∧ (at_ .idle).env.rx = [] := by decide

theorem test_witness_PadRows :
    ([] : Bytes).length % 2 = 0 ∧ ([0x41] : Bytes).length % 2 = 1 := by decide

theorem test_witness_PackRow :
    (Instr.pack [0x41, 0x42, 0x0D, 0x0A] 1).wf = true ∧ (Instr.pack [0x41, 0x0D] 0).wf = true := by
  decide

/-- V-FILT-2 and V-FILT-3: one idle byte only. -/
theorem test_witness_SwapAndFilterRows :
    ((⟨0x20, 0x15⟩ : XUnit).first ≠ (at_ .idle).cfg.idleByte) ∧
    ((⟨0x15, 0x20⟩ : XUnit).second ≠ (at_ .idle).cfg.idleByte) := by decide

theorem test_witness_AccumulateRow :
    (⟨0x15, 0x41⟩ : XUnit) ≠ ⟨(at_ .idle).cfg.idleByte, (at_ .idle).cfg.idleByte⟩ := by decide

/-- V-TRIMI-6 and the empty string. -/
theorem test_witness_TrimIdleRow :
    ([0x41, 0x15, 0x42] : Bytes).getLast? ≠ some (at_ .idle).cfg.idleByte ∧
    ([] : Bytes).getLast? ≠ some (at_ .idle).cfg.idleByte := by decide

/-- V-TRIMH-2, V-TRIMH-5 and V-TRIMH-1. -/
theorem test_witness_TrimHeadRow :
    ([0x0D] : Bytes).take 2 ≠ [0x0D, 0x0A] ∧ ([0x0A, 0x0D] : Bytes).take 2 ≠ [0x0D, 0x0A] ∧
    ([] : Bytes).take 2 ≠ [0x0D, 0x0A] := by decide

/-- V-TRIMP-3 (shorter than the suffix) and a string of its length that differs. -/
theorem test_witness_TrimPromptRow :
    ([0x4F, 0x4B, 0x0D, 0x0A, 0x3E, 0x20] : Bytes).length < 8 ∧
    ([0x0D, 0x0A, 0x6F, 0x6B, 0x0D, 0x0A, 0x3E, 0x20] : Bytes).drop (8 - 8) ≠
      (at_ .idle).cfg.suffix := by decide

/-- A payload without a head terminator; the empty payload needs the head terminator. -/
theorem test_witness_CleanRow :
    (at_ .idle).cfg.suffix.getLast? ≠ some (at_ .idle).cfg.idleByte ∧
    (([0x48, 0x65] : Bytes) ++ (at_ .idle).cfg.suffix).take 2 ≠ [0x0D, 0x0A] := by decide

theorem test_witness_BarePromptOverlap :
    Params.bRef.suffix = [0x0D, 0x0A] ++ [0x4F, 0x4B, 0x0D, 0x0A, 0x3E, 0x20] ∧
    ([0x4F, 0x4B, 0x0D, 0x0A, 0x3E, 0x20] : Bytes).getLast? ≠ some Params.bRef.idleByte := by
  decide

theorem test_witness_CheckRow :
    ([0x0D, 0x0A, 0x3E, 0x20] : Bytes).getLast? ≠ some (at_ .idle).cfg.idleByte := by decide

/-- A state that meets the invariant in the middle of a transmission. -/
def midTx : State :=
  { at_ .xTx with
    cmd := [0x41, 0x42], txbuf := [0x41, 0x42, 0x0D, 0x0A], txi := 1, cs := true, initOk := true,
    env := ⟨[], [], [⟨1, 2⟩], 0⟩ }

theorem midTx_inv : BlockInv midTx := by
  constructor <;> decide

/-- A state that meets the invariant in the drain, with a unit to read. -/
def midDrain : State := { at_ .iDrain with cs := true, env := ⟨[true], [⟨0x0A, 0x0D⟩], [], 0⟩ }

theorem midDrain_inv : BlockInv midDrain := by
  constructor <;> decide

/-- A state that meets the invariant before the check, with the idle prompt drained. -/
def beforeCheck : State := { at_ .iCheck with cs := true, raw := [0x0D, 0x0A, 0x3E, 0x20] }

theorem beforeCheck_inv : BlockInv beforeCheck := by
  constructor <;> decide

/-- A state that meets the invariant before the cleaning. -/
def beforeClean : State :=
  { at_ .xClean with
    cmd := [0x41], txbuf := [0x41, 0x0D], txi := 1, initOk := true,
    raw := [0x0D, 0x0A, 0x4F, 0x4B] }

theorem beforeClean_inv : BlockInv beforeClean := by
  constructor <;> decide

theorem test_witness_StepKeepsTheInvariant :
    (BlockInv midTx ∧ ∃ t, step midTx = .next t ∧ t.phase = .xDesel2) ∧
    (∃ s t, TraceShowsLines s ∧ s.cs = true ∧ step s = .next t ∧ t.cs = false) :=
  ⟨⟨midTx_inv, _, rfl, by decide⟩,
    { at_ .iDrain with cs := true, trace := [.rsta, .rstr, .sel], inbox := [.blockReset] },
    _, rfl, rfl, rfl, rfl⟩

theorem test_witness_InvariantStatesNeverStop : BlockInv midDrain := midDrain_inv

theorem test_witness_StepsTakeTableArcs :
    midTx.inbox = [] ∧ midTx.phase ≠ .uninit ∧ midTx.phase ≠ .idle ∧ midTx.phase ≠ .fault ∧
    ∀ k, midTx.phase ≠ .reserved k := by
  refine ⟨rfl, by decide, by decide, by decide, fun k h => ?_⟩
  cases h

/-- An exchange, and a read. -/
theorem test_witness_TransfersOnlyWhileSelected :
    (BlockInv midTx ∧ ∃ t, step midTx = .next t ∧
      t.trace = midTx.trace ++ [.xchg ⟨0x0A, 0x0D⟩]) ∧
    (BlockInv midDrain ∧ ∃ t, step midDrain = .next t ∧
      t.trace = midDrain.trace ++ [.sample true, .rd 0x0A]) :=
  ⟨⟨midTx_inv, _, rfl, by decide⟩, midDrain_inv, _, rfl, by decide⟩

/-- The end of an INIT, and the end of an EXEC. -/
theorem test_witness_ChipSelectAtRest :
    (BlockInv beforeCheck ∧ ∃ t, step beforeCheck = .next t ∧ beforeCheck.phase ≠ .idle ∧
      t.phase = .idle) ∧
    (BlockInv beforeClean ∧ ∃ t, step beforeClean = .next t ∧ beforeClean.phase ≠ .idle ∧
      t.phase = .idle) :=
  ⟨⟨beforeCheck_inv, _, rfl, by decide, by decide⟩,
    beforeClean_inv, _, rfl, by decide, by decide⟩

/-- An offer made in S_FAULT, and a block reset. -/
theorem test_witness_FaultPhaseIsAbsorbing :
    (∀ e ∈ [Event.word [0x01, 0]], e.hostLegal = true) ∧
    [Event.word [0x01, 0]].head? ≠ some .blockReset ∧ (at_ .fault).phase = .fault ∧
    ({ at_ .fault with inbox := [.blockReset] } : State).inbox = .blockReset :: [] := by decide

/-- Each of the three faults. -/
theorem test_witness_FaultsHaveTheirPhases :
    (∃ t, step (at_ .iCheck) = .next t ∧ t.phase = .fault) ∧
    (∃ t, step (drawing false [] { at_ .xWait2 with cfg := threePolls, tocnt := 2 }) = .next t ∧
      t.phase = .fault) ∧
    (∃ t, step (drawing true [⟨0x0A, 0x0D⟩]
      { at_ .xRx with cfg := small, raw := [0x0D, 0x0A, 0x4F, 0x4B] }) = .next t ∧
      t.phase = .fault) ∧
    (∀ e ∈ (at_ .iCheck).inbox, e.hostLegal = true) :=
  ⟨⟨_, rfl, by decide⟩, ⟨_, rfl, by decide⟩, ⟨_, rfl, by decide⟩, by decide⟩

/-- A step that changes elements, an offer that does, and a fault that does. -/
theorem test_witness_ElementsHaveTheirWriters :
    (∀ e ∈ midDrain.inbox, e.hostLegal = true) ∧ midDrain.inbox.head? ≠ some .blockReset ∧
    (∃ t, step midDrain = .next t ∧ t.raw ≠ midDrain.raw) ∧
    (∃ t, step { at_ .idle with inbox := [.word [0x01, 1, 0x41]] } = .next t ∧
      t.cmd ≠ (at_ .idle).cmd) ∧
    (∃ t, step (at_ .iCheck) = .next t ∧ t.err ≠ (at_ .iCheck).err ∧
      t.errcode ≠ (at_ .iCheck).errcode) :=
  ⟨by decide, by decide, ⟨_, rfl, by decide⟩, ⟨_, rfl, by decide⟩, _, rfl, by decide, by decide⟩

theorem test_witness_ParametersAreConstant : ∃ t, step midTx = .next t := ⟨_, rfl⟩

/-- Two states that differ in the unit an exchange returns. -/
theorem test_witness_UnitsReturnedDuringTransmissionReachNothing :
    SameButTxrx midTx { midTx with env := { midTx.env with txrx := [⟨7, 9⟩] } } ∧
    (∀ e ∈ midTx.inbox, e.hostLegal = true) ∧ ∃ t, step midTx = .next t :=
  ⟨⟨rfl, rfl⟩, by decide, _, rfl⟩

/-- Two zeros and then a 1, whose tail is empty. -/
theorem test_witness_WaitLastsWhileSamplesReadZero :
    (at_ .xWait1).inbox = [] ∧ (at_ .xWait1).cfg.timeoutPolls = none ∧
    ({ at_ .xWait1 with env := ⟨[false, false, true], [], [], 0⟩ } : State).env.d =
      List.replicate 2 false ++ (true :: []) := by decide

theorem test_witness_TimeoutAfterExactlyItsPolls :
    (at_ .xWait2).inbox = [] ∧ (at_ .xWait2).tocnt = 0 ∧ threePolls.timeoutPolls = some 3 ∧
    ({ at_ .xWait2 with env := ⟨[false, false, false], [], [], 0⟩ } : State).env.d =
      List.replicate 3 false ++ [] := by decide

/-- The INIT of P1, offered: `d=[1,1,0]`, `rx=[0A 0D, 20 3E]`. -/
def initOffered : State :=
  { at_ .uninit with
    inbox := [.word [0x01, 0]],
    env := ⟨[true, true, false], [⟨0x0A, 0x0D⟩, ⟨0x20, 0x3E⟩], [], 0⟩ }

/-- One state meets every hypothesis, without a bound on `RAW` and at a bound of 4 exactly. -/
theorem test_witness_WholeInitCompletes :
    (initOffered.phase = .uninit ∧ initOffered.inbox = [.word [0x01, 0]] ∧
      initOffered.env.d =
        List.replicate ([⟨0x0A, 0x0D⟩, ⟨0x20, 0x3E⟩] : List XUnit).length true ++ false :: [] ∧
      initOffered.env.rx = [⟨0x0A, 0x0D⟩, ⟨0x20, 0x3E⟩] ++ []) ∧
    (∀ n, initOffered.cfg.nRawMax = some n →
      (accAll initOffered.cfg [⟨0x0A, 0x0D⟩, ⟨0x20, 0x3E⟩]).length ≤ n) ∧
    trimI initOffered.cfg (accAll initOffered.cfg [⟨0x0A, 0x0D⟩, ⟨0x20, 0x3E⟩]) =
      initOffered.cfg.idlePrompt ∧
    (∀ n, ({ initOffered with cfg := small } : State).cfg.nRawMax = some n →
      (accAll small [⟨0x0A, 0x0D⟩, ⟨0x20, 0x3E⟩]).length ≤ n) :=
  ⟨⟨rfl, rfl, rfl, rfl⟩, by decide, by decide, by decide⟩

/-- The INIT of P3, offered: `d=[1,0]`, `rx=[20 3E]`. -/
def initOfferedP3 : State :=
  { at_ .uninit with
    inbox := [.word [0x01, 0]], env := ⟨[true, false], [⟨0x20, 0x3E⟩], [], 0⟩ }

theorem test_witness_WholeInitFails :
    (initOfferedP3.phase = .uninit ∧ initOfferedP3.inbox = [.word [0x01, 0]] ∧
      initOfferedP3.env.d =
        List.replicate ([⟨0x20, 0x3E⟩] : List XUnit).length true ++ false :: [] ∧
      initOfferedP3.env.rx = [⟨0x20, 0x3E⟩] ++ []) ∧
    (∀ n, initOfferedP3.cfg.nRawMax = some n →
      (accAll initOfferedP3.cfg [⟨0x20, 0x3E⟩]).length ≤ n) ∧
    trimI initOfferedP3.cfg (accAll initOfferedP3.cfg [⟨0x20, 0x3E⟩]) ≠
      initOfferedP3.cfg.idlePrompt :=
  ⟨⟨rfl, rfl, rfl, rfl⟩, by decide, by decide⟩

/-- An EXEC of two characters, offered under bounds of 3 polls, 2 characters and 4 bytes: one zero, two
units, two zeros. -/
def execOffered : State :=
  { at_ .idle with
    cfg := { small with timeoutPred := some 2 }, initOk := true,
    inbox := [.word [0x01, 1, 0x41, 0x42]],
    env := ⟨[false, true, true, true, false, false, false, true],
      [⟨0x0A, 0x0D⟩, ⟨0x4B, 0x4F⟩], [], 0⟩ }

theorem test_witness_WholeExecCompletes :
    (execOffered.phase = .idle ∧ execOffered.inbox = [.word (0x01 :: 1 :: [0x41, 0x42])] ∧
      execOffered.env.d =
        execSamples 1 ([⟨0x0A, 0x0D⟩, ⟨0x4B, 0x4F⟩] : List XUnit).length 2 ++ [] ∧
      execOffered.env.rx = [⟨0x0A, 0x0D⟩, ⟨0x4B, 0x4F⟩] ++ []) ∧
    (∀ n, execOffered.cfg.nCmdMax = some n → ([0x41, 0x42] : Bytes).length ≤ n) ∧
    (∀ n, execOffered.cfg.timeoutPolls = some n → 1 < n ∧ 2 < n) ∧
    (∀ n, execOffered.cfg.nRawMax = some n →
      (accAll execOffered.cfg [⟨0x0A, 0x0D⟩, ⟨0x4B, 0x4F⟩]).length ≤ n) :=
  ⟨⟨rfl, rfl, rfl, rfl⟩, by decide, by decide, by decide⟩

/-- The step count and trace of P1's EXEC are those the spec prints: 24 steps. -/
theorem test_execSteps_P1 : execSteps 2 1 9 2 = 24 ∧ initSteps 2 = 7 := by decide

end Sys2Proof.Tests
end

section
/-! The choreography phases with no branch: the line writes written out as record updates, one
equation per phase row through the named operations, and the obligations about them. -/

namespace Sys2Proof.Machine

/-! ### The line writes and `PAD`, written out -/

theorem goto_eq (p : Phase) (s : State) : goto p s = { s with phase := p } := rfl

theorem rstAssert_eq (s : State) :
    rstAssert s = { s with rst := true, trace := s.trace ++ [.rsta] } := rfl

theorem rstRelease_eq (s : State) :
    rstRelease s = { s with rst := false, trace := s.trace ++ [.rstr] } := rfl

theorem selectLine_eq (s : State) :
    selectLine s = { s with cs := true, trace := s.trace ++ [.sel] } := rfl

theorem deselectLine_eq (s : State) :
    deselectLine s = { s with cs := false, trace := s.trace ++ [.desel] } := rfl

/-- Both rows of rule R100 at once. -/
theorem pad_eq_ite (c : Bytes) :
    pad c = if c.length % 2 = 0 then c ++ [0x0D, 0x0A] else c ++ [0x0D] := by
  split
  next h => exact pad_even c h
  next h => exact pad_odd c (Nat.mod_two_ne_zero.mp h)

/-! ### The phase rows; the minimum waits change nothing (assumption 17) -/

theorem exec_sIRsta (s : State) : exec .sIRsta s = .next (goto .iRstr (rstAssert s)) := rfl

theorem exec_sIRstr (s : State) : exec .sIRstr s = .next (goto .iSel (rstRelease s)) := rfl

theorem exec_sISel (s : State) :
    exec .sISel s = .next (goto .iDrain { selectLine s with raw := [] }) := rfl

theorem exec_sXPad (s : State) :
    exec .sXPad s = .next (goto .xDesel1 { s with txbuf := pad s.cmd, txi := 0, raw := [] }) := rfl

theorem exec_sXDesel1 (s : State) : exec .sXDesel1 s = .next (goto .xSel1 (deselectLine s)) := rfl

theorem exec_sXSel1 (s : State) : exec .sXSel1 s = .next (goto .xTx (selectLine s)) := rfl

theorem exec_sXDesel2 (s : State) : exec .sXDesel2 s = .next (goto .xSel2 (deselectLine s)) := rfl

theorem exec_sXClean (s : State) :
    exec .sXClean s =
      .next (goto .idle { s with resp := cleanRaw s.cfg s.raw, done := true }) := rfl

/-! ### `CS` on entry to the second deselect -/

/-- The transmission ends selected (rule R173). -/
theorem BlockInv.cs_of_phase_xDesel2 {s : State} (hinv : BlockInv s) (hp : s.phase = .xDesel2) :
    s.cs = true :=
  hinv.csAt true (by rw [hp]; rfl)

/-! ### The obligations -/

/-- Settles O13: each phase writes its line, then `PHASE`. -/
theorem resetLinePhases : Obligations.ResetLinePhases := by
  intro s
  constructor
  · rw [exec_sIRsta, rstAssert_eq, goto_eq]
  · rw [exec_sIRstr, rstRelease_eq, goto_eq]

/-- Settles O14: the selection, then `RAW` and `PHASE`. -/
theorem initSelectPhase : Obligations.InitSelectPhase := by
  intro s
  rw [exec_sISel, selectLine_eq, goto_eq]

/-- Settles O19: the frame is `PAD(CMD)`, written out by the parity of the length. -/
theorem padPhase : Obligations.PadPhase := by
  intro s
  rw [exec_sXPad, pad_eq_ite, goto_eq]

/-- Settles O20: the level on entry is the invariant's, the line writes are the phases' own. -/
theorem handshakePhases : Obligations.HandshakePhases := by
  refine ⟨fun _ hinv hp => hinv.cs_of_phase_xDesel2 hp, fun s => ⟨?_, ?_, ?_⟩⟩
  · rw [exec_sXDesel1, deselectLine_eq, goto_eq]
  · rw [exec_sXSel1, selectLine_eq, goto_eq]
  · rw [exec_sXDesel2, deselectLine_eq, goto_eq]

/-- Settles O24: `RESP` and `DONE`, then `PHASE`. -/
theorem cleanPhase : Obligations.CleanPhase := by
  intro s
  rw [exec_sXClean, goto_eq]

end Sys2Proof.Machine
end

section
/-! The decoder and the encoder are inverse to each other (`30_encoding.md`, assumption 4): one
inversion lemma per format, then the two round trips. -/

namespace Sys2Proof.Machine

/-! ### What a format's decoder accepts -/

/-- A code byte is the numeral of its value. -/
theorem byte_eq_of_toNat {code : Byte} {n : Nat} (h : code.toNat = n) :
    code = BitVec.ofNat 8 n := by
  rw [← h, BitVec.ofNat_toNat, BitVec.setWidth_eq]

theorem decodePhase_inv {code : Byte} {i : Instr} (h : decodePhase code = .ok i) :
    i.wf = true ∧ encode i = [0x00, code] := by
  unfold decodePhase at h
  split at h <;> cases h <;> exact ⟨rfl, by rw [byte_eq_of_toNat ‹code.toNat = _›]; rfl⟩

theorem decodeHostOp_inv {r : Bytes} {i : Instr} (h : decodeHostOp r = .ok i) :
    i.wf = true ∧ encode i = 0x01 :: r := by
  cases r with
  | nil => cases h
  | cons op c =>
    simp only [decodeHostOp] at h
    split at h
    next hop =>
      split at h
      next hc =>
        cases h
        exact ⟨rfl, by rw [byte_eq_of_toNat hop, List.isEmpty_iff.1 hc]; rfl⟩
      next => cases h
    next hop =>
      cases h
      exact ⟨rfl, by rw [byte_eq_of_toNat hop]; rfl⟩
    next => cases h

theorem decodePrim_inv {r : Bytes} {i : Instr} (h : decodePrim r = .ok i) :
    i.wf = true ∧ encode i = 0x02 :: r := by
  unfold decodePrim at h
  split at h
  next code =>
    split at h <;> cases h <;> exact ⟨rfl, by rw [byte_eq_of_toNat ‹code.toNat = _›]; rfl⟩
  next code b0 b1 =>
    split at h
    next hc => subst hc; cases h; exact ⟨rfl, rfl⟩
    next => cases h
  next => cases h

theorem decodeComposite_inv {code : Byte} {i : Instr} (h : decodeComposite code = .ok i) :
    i.wf = true ∧ encode i = [0x03, code] := by
  unfold decodeComposite at h
  split at h <;> cases h <;> exact ⟨rfl, by rw [byte_eq_of_toNat ‹code.toNat = _›]; rfl⟩

theorem decodePad_inv {r : Bytes} {i : Instr} (h : decodePad r = .ok i) :
    i.wf = true ∧ encode i = 0x04 :: r := by
  cases r with
  | nil => cases h
  | cons par c =>
    simp only [decodePad] at h
    split at h
    case h_3 => cases h
    all_goals
      split at h
      next hpar hlen =>
        cases h
        exact ⟨by simpa [Instr.wf] using hlen, by rw [byte_eq_of_toNat hpar]; rfl⟩
      next => cases h

/-- The unary index is read back as the ones in front of the frame. -/
theorem decodePack_inv {r : Bytes} {k : Nat} {i : Instr} (h : decodePack k r = .ok i) :
    ∃ j f, r = List.replicate j 1 ++ 0 :: f ∧ i = .pack f (k + j) ∧ i.wf = true := by
  induction r generalizing k with
  | nil => cases h
  | cons t r ih =>
    simp only [decodePack] at h
    split at h
    next ht =>
      split at h
      next hf =>
        cases h
        exact ⟨0, r, by rw [byte_eq_of_toNat ht]; rfl, rfl, by simpa [Instr.wf] using hf⟩
      next => cases h
    next ht =>
      obtain ⟨j, f, rfl, rfl, hwf⟩ := ih h
      have hkj : k + 1 + j = k + (j + 1) := by omega
      exact ⟨j + 1, f, by rw [byte_eq_of_toNat ht]; rfl, by rw [hkj], hwf⟩
    next => cases h

theorem decodeErr_inv {code : Byte} {i : Instr} (h : decodeErr code = .ok i) :
    i.wf = true ∧ encode i = [0x0F, code] := by
  unfold decodeErr at h
  split at h <;> cases h <;> exact ⟨rfl, by rw [byte_eq_of_toNat ‹code.toNat = _›]; rfl⟩

/-! ### The obligations -/

/-- Settles O2: the words are closed. -/
theorem wordsDecodeToTheirRows : Obligations.WordsDecodeToTheirRows :=
  ⟨rfl, rfl, rfl, rfl, rfl, rfl⟩

/-- Settles O3: only the reserved codes, the parity bit and the unary index need an argument; every
other word decodes by evaluation. -/
theorem decodeOfEncodeIsIdentity : Obligations.DecodeOfEncodeIsIdentity := by
  intro i hwf
  cases i with
  | phaseReserved20 pp => revert pp; decide
  | phaseReserved24 ppp => revert ppp; decide
  | padEven c => exact decodePad_even c (by simpa [Instr.wf] using hwf)
  | padOdd c => exact decodePad_odd c (by simpa [Instr.wf] using hwf)
  | pack f k =>
    have hk : f.length % 2 = 0 ∧ 0 + k < f.length / 2 := by simpa [Instr.wf] using hwf
    refine (decodePack_replicate k 0 f).trans ?_
    rw [if_pos hk, Nat.zero_add]
  | _ => rfl

/-- Settles O4: the format byte selects the inversion lemma of its format. -/
theorem encodeOfDecodeIsIdentity : Obligations.EncodeOfDecodeIsIdentity := by
  intro w i h
  unfold decode at h
  split at h
  next => cases h
  next sel r =>
    split at h
    next hsel =>
      rw [byte_eq_of_toNat hsel]
      split at h
      next => exact decodePhase_inv h
      next => cases h
    next hsel => rw [byte_eq_of_toNat hsel]; exact decodeHostOp_inv h
    next hsel => rw [byte_eq_of_toNat hsel]; exact decodePrim_inv h
    next hsel =>
      rw [byte_eq_of_toNat hsel]
      split at h
      next => exact decodeComposite_inv h
      next => cases h
    next hsel => rw [byte_eq_of_toNat hsel]; exact decodePad_inv h
    case h_7 hsel =>
      rw [byte_eq_of_toNat hsel]
      obtain ⟨j, f, rfl, rfl, hwf⟩ := decodePack_inv h
      exact ⟨hwf, by rw [Nat.zero_add]; rfl⟩
    case h_16 hsel =>
      rw [byte_eq_of_toNat hsel]
      split at h
      next => exact decodeErr_inv h
      next => cases h
    case h_17 => cases h
    -- the rows with no code: SWAP, ACC and FILT take units, the others any string
    case h_8 | h_9 | h_10 =>
      rw [byte_eq_of_toNat ‹sel.toNat = _›]
      split at h <;> cases h
      exact ⟨rfl, rfl⟩
    all_goals rw [byte_eq_of_toNat ‹sel.toNat = _›]; cases h; exact ⟨rfl, rfl⟩

end Sys2Proof.Machine
end

section
/-! The framer and the cleaner (`40_framer.md`, `41_cleaner.md`): laws of the shared functions in
the rules' own terms, then the rows that deliver their values. -/

namespace Sys2Proof.Machine

/-! ### The framer -/

/-- What `PAD` appends (rule R103). -/
theorem pad_drop (c : Bytes) :
    (pad c).drop c.length = if c.length % 2 = 0 then [0x0D, 0x0A] else [0x0D] := by
  rw [pad_eq_ite]; split <;> simp

theorem two_le_pad_length (c : Bytes) : 2 ≤ (pad c).length := by
  rw [pad_length]; omega

/-- The units of an even frame, each swapped back, join to the frame (rule R102). -/
theorem flatMap_packAt (f : Bytes) (h : f.length % 2 = 0) :
    ((List.range (f.length / 2)).map (packAt f)).flatMap (fun u => [u.second, u.first]) = f := by
  match f with
  | [] => rfl
  | [a] => simp at h
  | a :: b :: r =>
    have hr : r.length % 2 = 0 := by rw [List.length_cons, List.length_cons] at h; omega
    have hlen : (a :: b :: r).length / 2 = r.length / 2 + 1 := by
      rw [List.length_cons, List.length_cons]; omega
    have htail : (List.range (r.length / 2)).map (packAt (a :: b :: r) ∘ Nat.succ) =
        (List.range (r.length / 2)).map (packAt r) :=
      List.map_congr_left fun i hi => packAt_cons a b r i (List.mem_range.1 hi)
    rw [hlen, List.range_succ_eq_map, List.map_cons, List.map_map, htail, List.flatMap_cons,
      flatMap_packAt r hr]
    rfl

theorem flatMap_frameUnits (c : Bytes) :
    (frameUnits c).flatMap (fun u => [u.second, u.first]) = pad c :=
  flatMap_packAt (pad c) (by rw [pad_length]; omega)

/-! ### The per-unit half of the cleaner -/

theorem filtKeep_swapUnit_iff (p : Params) (w : XUnit) :
    filtKeep p (swapUnit w) = true ↔ w ≠ ⟨p.idleByte, p.idleByte⟩ := by
  cases w; simp [filtKeep_iff, swapUnit, and_comm]

/-- `ACC` of any unit, by whether it is the idle unit (rule R112). -/
theorem accUnit_eq_ite (p : Params) (raw : Bytes) (w : XUnit) :
    accUnit p raw w =
      if w ≠ ⟨p.idleByte, p.idleByte⟩ then raw ++ [w.second, w.first] else raw := by
  split
  next h => exact accUnit_keep p raw w ((filtKeep_swapUnit_iff p w).2 h)
  next h => exact accUnit_drop p raw w (by simpa using (filtKeep_swapUnit_iff p w).not.2 h)

/-- The kept units of a WIRE list, each swapped, in order (rule R112, 90 C1). -/
theorem accAll_eq_flatMap (p : Params) (ws : List XUnit) :
    accAll p ws = (ws.filter (fun w => decide (w ≠ ⟨p.idleByte, p.idleByte⟩))).flatMap
      (fun w => [w.second, w.first]) := by
  induction ws using List.reverseRecOn with
  | nil => rfl
  | append_singleton ws w ih =>
    rw [accAll_append_one, accUnit_eq_ite, ih, List.filter_append, List.flatMap_append]
    by_cases h : w = ⟨p.idleByte, p.idleByte⟩ <;> simp [h]

theorem accAll_idle (p : Params) (k : Nat) :
    accAll p (List.replicate k ⟨p.idleByte, p.idleByte⟩) = [] := by
  simp [accAll_eq_flatMap]

/-! ### The end-of-frame half of the cleaner -/

theorem tailIdle_eq_false_iff (p : Params) (b : Bytes) :
    tailIdle p b = false ↔ b.getLast? ≠ some p.idleByte := by
  simp [tailIdle]

/-- `TRIMI` of a string and a run of idle bytes, in terms of the last byte (rule R113). -/
theorem trimI_append_replicate (p : Params) (t : Bytes) (n : Nat)
    (h : t.getLast? ≠ some p.idleByte) : trimI p (t ++ List.replicate n p.idleByte) = t :=
  trimI_unique p t n ((tailIdle_eq_false_iff p t).2 h)

/-- What `TRIMI` leaves does not end in `IDLE_BYTE` (rule R113). -/
theorem getLast?_trimI_ne (p : Params) (b : Bytes) : (trimI p b).getLast? ≠ some p.idleByte := by
  obtain ⟨_, _, ht⟩ := trimI_spec p b
  exact (tailIdle_eq_false_iff p _).1 ht

theorem take_two_eq_lineTerm_iff (b : Bytes) :
    b.take 2 = [0x0D, 0x0A] ↔ ∃ r, b = 0x0D :: 0x0A :: r := by
  constructor
  · intro h
    exact ⟨b.drop 2, by rw [← List.take_append_drop 2 b, h]; simp⟩
  · rintro ⟨r, rfl⟩; rfl

/-- `TRIMH` is exact on every string (rule R118 b). -/
theorem trimH_eq_ite (b : Bytes) : trimH b = if b.take 2 = [0x0D, 0x0A] then b.drop 2 else b := by
  split
  next h => obtain ⟨r, rfl⟩ := (take_two_eq_lineTerm_iff b).1 h; exact trimH_of_term r
  next h => exact trimH_of_not_term b fun r hr => h ((take_two_eq_lineTerm_iff b).2 ⟨r, hr⟩)

/-- `TRIMP` is exact on every string (rule R118 c). -/
theorem trimP_eq_ite (p : Params) (b : Bytes) :
    trimP p b = if 8 ≤ b.length ∧ b.drop (b.length - 8) = p.suffix then b.take (b.length - 8)
      else b := by
  simp [trimP, tailPrompt]

theorem trimH_suffix_of (b : Bytes) : ∃ head, b = head ++ trimH b := by
  rw [trimH_eq_ite]
  split
  · exact ⟨b.take 2, (List.take_append_drop 2 b).symm⟩
  · exact ⟨[], rfl⟩

theorem trimP_prefix_of (p : Params) (b : Bytes) : ∃ tail, b = trimP p b ++ tail := by
  rw [trimP_eq_ite]
  split
  · exact ⟨b.drop (b.length - 8), (List.take_append_drop _ b).symm⟩
  · exact ⟨[], by simp⟩

theorem suffix_ne_nil (p : Params) : p.suffix ≠ [] := by
  intro h; simpa [h] using suffix_length p

/-- The suffix decides the last byte of what ends in it. -/
theorem getLast?_append_suffix (p : Params) (t : Bytes) :
    (t ++ p.suffix).getLast? = p.suffix.getLast? :=
  List.getLast?_append_of_ne_nil t (suffix_ne_nil p)

theorem trimP_of_short (p : Params) (b : Bytes) (h : b.length < 8) : trimP p b = b := by
  rw [trimP_eq_ite, if_neg (by omega)]

/-- `CLEAN` takes the run of idle bytes off before it looks at the two ends (rule R116). -/
theorem cleanRaw_append_replicate (p : Params) (t : Bytes) (n : Nat)
    (h : t.getLast? ≠ some p.idleByte) :
    cleanRaw p (t ++ List.replicate n p.idleByte) = trimP p (trimH t) := by
  rw [cleanRaw, trimI_append_replicate p t n h]

theorem cleanRaw_replicate (p : Params) (k : Nat) :
    cleanRaw p (List.replicate k p.idleByte) = [] :=
  cleanRaw_append_replicate p [] k (by simp)

/-- The payload of a response with its head terminator (rules R86, R116). -/
theorem cleanRaw_term_payload (p : Params) (payload : Bytes) (n : Nat)
    (h : p.suffix.getLast? ≠ some p.idleByte) :
    cleanRaw p ([0x0D, 0x0A] ++ payload ++ p.suffix ++ List.replicate n p.idleByte) = payload := by
  rw [cleanRaw_append_replicate p _ n (by rwa [getLast?_append_suffix]), List.append_assoc]
  exact (congrArg (trimP p) (trimH_of_term (payload ++ p.suffix))).trans
    (trimP_of_suffix p payload)

/-- The payload of a response without a head terminator (rules R86, R116). -/
theorem cleanRaw_payload (p : Params) (payload : Bytes) (n : Nat)
    (h : p.suffix.getLast? ≠ some p.idleByte) (ht : (payload ++ p.suffix).take 2 ≠ [0x0D, 0x0A]) :
    cleanRaw p (payload ++ p.suffix ++ List.replicate n p.idleByte) = payload := by
  rw [cleanRaw_append_replicate p _ n (by rwa [getLast?_append_suffix]), trimH_eq_ite, if_neg ht,
    trimP_of_suffix]

/-- `CLEAN` removes bytes from the two ends only (rule R118 d). -/
theorem cleanRaw_infix (p : Params) (raw : Bytes) :
    ∃ head tail, raw = head ++ cleanRaw p raw ++ tail := by
  obtain ⟨n, hraw, -⟩ := trimI_spec p raw
  obtain ⟨head, hhead⟩ := trimH_suffix_of (trimI p raw)
  obtain ⟨tail, htail⟩ := trimP_prefix_of p (trimH (trimI p raw))
  refine ⟨head, tail ++ List.replicate n p.idleByte, ?_⟩
  calc raw = trimI p raw ++ List.replicate n p.idleByte := hraw
    _ = head ++ trimH (trimI p raw) ++ List.replicate n p.idleByte := by rw [← hhead]
    _ = head ++ (cleanRaw p raw ++ tail) ++ List.replicate n p.idleByte := by
        rw [cleanRaw, ← htail]
    _ = head ++ cleanRaw p raw ++ (tail ++ List.replicate n p.idleByte) := by
        simp only [List.append_assoc]

theorem checkMatch_eq_decide (p : Params) (raw : Bytes) :
    checkMatch p raw = decide (trimI p raw = p.idlePrompt) := by
  rw [checkMatch, beq_eq_decide]

/-! ### The rows presented by themselves: each delivers its value (assumption 11) -/

theorem deliver_eq (r : Result) (s : State) : deliver r s = { s with result := r } := rfl

theorem exec_padEven (c : Bytes) (s : State) :
    exec (.padEven c) s = .next (deliver (.bytes (c ++ [0x0D, 0x0A])) s) := rfl

theorem exec_padOdd (c : Bytes) (s : State) :
    exec (.padOdd c) s = .next (deliver (.bytes (c ++ [0x0D])) s) := rfl

theorem exec_pack (f : Bytes) (k : Nat) (s : State) :
    exec (.pack f k) s = .next (deliver (.unit (packAt f k)) s) := rfl

theorem exec_frame (c : Bytes) (s : State) :
    exec (.frame c) s = .next (deliver (.units (frameUnits c)) s) := rfl

theorem exec_swap (w : XUnit) (s : State) :
    exec (.swap w) s = .next (deliver (.unit (swapUnit w)) s) := rfl

theorem exec_filt (u : XUnit) (s : State) :
    exec (.filt u) s = .next (deliver (.kept (filtKeep s.cfg u)) s) := rfl

theorem exec_acc (raw : Bytes) (w : XUnit) (s : State) :
    exec (.acc raw w) s = .next (deliver (.bytes (accUnit s.cfg raw w)) s) := rfl

theorem exec_trimi (b : Bytes) (s : State) :
    exec (.trimi b) s = .next (deliver (.bytes (trimI s.cfg b)) s) := rfl

theorem exec_trimh (b : Bytes) (s : State) :
    exec (.trimh b) s = .next (deliver (.bytes (trimH b)) s) := rfl

theorem exec_trimp (b : Bytes) (s : State) :
    exec (.trimp b) s = .next (deliver (.bytes (trimP s.cfg b)) s) := rfl

theorem exec_clean (raw : Bytes) (s : State) :
    exec (.clean raw) s = .next (deliver (.bytes (cleanRaw s.cfg raw)) s) := rfl

theorem exec_check (raw : Bytes) (s : State) :
    exec (.check raw) s =
      .next (deliver (.checked (trimI s.cfg raw) (checkMatch s.cfg raw)) s) := rfl

/-! ### The obligations about the framer -/

/-- Settles O30: the two rows deliver the two branches of `PAD`. -/
theorem padRows : Obligations.PadRows :=
  ⟨fun s c h => ⟨exec_padEven c s, pad_even c h⟩, fun s c h => ⟨exec_padOdd c s, pad_odd c h⟩⟩

/-- Settles O31: length, beginning and end of a frame. -/
theorem evennessLaw : Obligations.EvennessLaw := fun c =>
  ⟨by rw [pad_length]; omega, two_le_pad_length c, pad_take c, pad_drop c⟩

/-- Settles O32: inside the precondition both bytes of the pair exist. -/
theorem packRow : Obligations.PackRow := by
  intro s f k hwf
  have hk : k < f.length / 2 := by simp [Instr.wf] at hwf; exact hwf.2
  obtain ⟨a, b, ha, hb, hp⟩ := packAt_spec f k hk
  exact ⟨a, b, ha, hb, by rw [exec_pack, hp, deliver_eq]⟩

/-- Settles O33: the units swapped back join to the frame. -/
theorem frameRow : Obligations.FrameRow := fun s c =>
  ⟨frameUnits c, exec_frame c s, frameUnits_length c, (flatMap_frameUnits c).trans (pad_eq_ite c)⟩

/-! ### The obligations about the cleaner -/

/-- Settles O34: FILT keeps a unit with a byte that is not idle. -/
theorem swapAndFilterRows : Obligations.SwapAndFilterRows := by
  refine ⟨fun s r0 r1 => exec_swap ⟨r0, r1⟩ s, fun s => ?_, fun s u hu => ?_⟩
  · have hdrop : filtKeep s.cfg ⟨s.cfg.idleByte, s.cfg.idleByte⟩ = false :=
      Bool.eq_false_iff.2 fun hk => (filtKeep_iff _ _).1 hk ⟨rfl, rfl⟩
    rw [exec_filt, hdrop, deliver_eq]
  · rw [exec_filt, (filtKeep_iff _ _).2 (not_and_or.2 hu), deliver_eq]

/-- Settles O35: both branches of `ACC`. -/
theorem accumulateRow : Obligations.AccumulateRow := by
  refine ⟨fun s raw => ?_, fun s raw w hw => ?_⟩
  · rw [exec_acc, accUnit_eq_ite, if_neg (not_not.2 rfl), deliver_eq]
  · rw [exec_acc, accUnit_eq_ite, if_pos hw, deliver_eq]

/-- Settles O36: two bytes for each kept unit. -/
theorem accumulatorIsTheKeptUnits : Obligations.AccumulatorIsTheKeptUnits := by
  intro p ws
  refine ⟨accAll_eq_flatMap p ws, ?_⟩
  rw [accAll_eq_flatMap, List.length_flatMap]
  simp [Nat.mul_comm]

/-- Settles O37: the decomposition into a string and a run of idle bytes determines `TRIMI`. -/
theorem trimIdleRow : Obligations.TrimIdleRow := by
  intro s t n ht
  rw [exec_trimi, trimI_append_replicate s.cfg t n ht, deliver_eq]

/-- Settles O38: the two branches of `TRIMH`. -/
theorem trimHeadRow : Obligations.TrimHeadRow := by
  refine ⟨fun s r => ?_, fun s b hb => ?_⟩
  · rw [exec_trimh, trimH_of_term, deliver_eq]
  · rw [exec_trimh, trimH_eq_ite, if_neg hb, deliver_eq]

/-- Settles O39: the two branches of `TRIMP`. -/
theorem trimPromptRow : Obligations.TrimPromptRow := by
  refine ⟨fun s t => ?_, fun s b hb => ?_⟩
  · rw [exec_trimp, trimP_of_suffix, deliver_eq]
  · have hno : ¬(8 ≤ b.length ∧ b.drop (b.length - 8) = s.cfg.suffix) := by
      rintro ⟨hlen, hdrop⟩
      exact hb.elim (fun hlt => absurd hlt (Nat.not_lt.2 hlen)) fun hne => hne hdrop
    rw [exec_trimp, trimP_eq_ite, if_neg hno, deliver_eq]

/-- Settles O40: the payload comes back from either shape of a response. -/
theorem cleanRow : Obligations.CleanRow := by
  refine ⟨fun s payload n h => ?_, fun s payload n h ht => ?_, fun s raw => exec_clean raw s⟩
  · rw [exec_clean, cleanRaw_term_payload s.cfg payload n h, deliver_eq]
  · rw [exec_clean, cleanRaw_payload s.cfg payload n h ht, deliver_eq]

/-- Settles O41: `TRIMI` keeps the suffix, `TRIMH` takes two of its bytes, and six are too few for
`TRIMP`. -/
theorem barePromptOverlap : Obligations.BarePromptOverlap := by
  intro p six hsuf hlast
  have hlen : six.length = 6 := by
    have := suffix_length p
    rw [hsuf] at this
    simpa using this
  have hne : six ≠ [] := by rintro rfl; simp at hlen
  have htail : p.suffix.getLast? ≠ some p.idleByte := by
    rwa [hsuf, List.getLast?_append_of_ne_nil _ hne]
  have hclean := cleanRaw_append_replicate p p.suffix 0 htail
  rw [List.replicate_zero, List.append_nil] at hclean
  refine ⟨?_, hlen⟩
  calc cleanRaw p p.suffix = trimP p (trimH p.suffix) := hclean
    _ = trimP p six := by rw [hsuf]; exact congrArg (trimP p) (trimH_of_term six)
    _ = six := trimP_of_short p six (by omega)

/-- Settles O42: the four laws of rule R118. -/
theorem cleanerLaws : Obligations.CleanerLaws := by
  refine ⟨fun p k => ⟨?_, cleanRaw_replicate p k⟩, trimH_eq_ite, trimP_eq_ite, cleanRaw_infix⟩
  rw [accAll_idle]
  exact cleanRaw_replicate p 0

/-- Settles O43: CHECK compares what `TRIMI` leaves. -/
theorem checkRow : Obligations.CheckRow := by
  intro s t n ht
  rw [exec_check, checkMatch_eq_decide, trimI_append_replicate s.cfg t n ht, deliver_eq]

end Sys2Proof.Machine
end

section
/-! The rows one at a time: offers, shared turns, primitives and fault codes, each branch as an
equation, and the obligations about single rows. -/

namespace Sys2Proof.Machine

/-! ### Fetching and block reset -/

/-- Block reset with the two lines at 0 (rule R220). -/
theorem blockReset_of_lines_low (s : State) (hc : s.cs = false) (hr : s.rst = false) :
    blockReset s =
      { State.reset with cfg := s.cfg, inbox := s.inbox, env := s.env, trace := s.trace } := by
  rw [blockReset, resetFalls_eq_nil s hc hr, List.append_nil]

/-- Block reset with a line at 1: the module sees the fall (rule R30). -/
theorem blockReset_of_line_high (s : State) (h : s.cs = true ∨ s.rst = true) :
    blockReset s = { State.reset with
      cfg := s.cfg, inbox := s.inbox, env := s.env, trace := s.trace ++ [.fall s.cs s.rst] } := by
  rw [blockReset, resetFalls_eq_fall s h]

/-! ### Offers (rules R150, R194) -/

theorem resting_iff (p : Phase) : p.resting = true ↔ p = .uninit ∨ p = .idle ∨ p = .fault := by
  cases p <;> simp [Phase.resting]

theorem busy_eq_false_iff (s : State) :
    busy s = false ↔ s.phase = .uninit ∨ s.phase = .idle ∨ s.phase = .fault := by
  rw [← resting_iff]; simp [busy]

theorem exec_init_of_refusal {s : State} {r : RefuseReason} (h : refusalOf none s = some r) :
    exec .init s = .next (refuse r s) := by
  simp [exec, execInit, h]

theorem exec_exec_of_refusal {c : Bytes} {s : State} {r : RefuseReason}
    (h : refusalOf (some c) s = some r) : exec (.exec c) s = .next (refuse r s) := by
  simp [exec, execExec, h]

/-- One argument for the refusals that do not look at the operation. -/
theorem exec_offer_of_refusal {s : State} {r : RefuseReason} {op : Instr}
    (h : ∀ o, refusalOf o s = some r) (hop : op = .init ∨ ∃ c, op = .exec c) :
    exec op s = .next (refuse r s) := by
  rcases hop with rfl | ⟨c, rfl⟩
  · exact exec_init_of_refusal (h none)
  · exact exec_exec_of_refusal (h (some c))

theorem refusalOf_of_fault {s : State} (h : s.phase = .fault) (op : Option Bytes) :
    refusalOf op s = some .refFaulted := by
  simp [refusalOf, h]

theorem refusalOf_of_busy {s : State} (h : busy s = true) (op : Option Bytes) :
    refusalOf op s = some .refBusy := by
  have hf : s.phase ≠ .fault := fun hf => by simp [busy, hf, Phase.resting] at h
  simp [refusalOf, hf, h]

theorem refusalOf_exec_of_uninit {s : State} (h : s.phase = .uninit) (c : Bytes) :
    refusalOf (some c) s = some .refUninit := by
  simp [refusalOf, busy, h, Phase.resting]

theorem refusalOf_exec_of_idle {s : State} (h : s.phase = .idle) (c : Bytes) :
    refusalOf (some c) s = if overCmdMax s.cfg c then some .refTooLong else none := by
  simp [refusalOf, busy, h, Phase.resting]

theorem exec_init_accepted {s : State} (h : s.phase = .uninit ∨ s.phase = .idle) :
    exec .init s = .next (acceptInit s) := by
  have hn : refusalOf none s = none := (refusalOf_eq_none_iff _ _).2 (.inl ⟨rfl, h⟩)
  simp [exec, execInit, hn]

theorem exec_exec_accepted {s : State} {c : Bytes} (h : s.phase = .idle)
    (hc : ∀ n, s.cfg.nCmdMax = some n → c.length ≤ n) :
    exec (.exec c) s = .next (acceptExec c s) := by
  have hn : refusalOf (some c) s = none :=
    (refusalOf_eq_none_iff _ _).2 (.inr ⟨c, rfl, h, (overCmdMax_eq_false_iff _ _).2 hc⟩)
  simp [exec, execExec, hn]

theorem overCmdMax_eq_true_of_lt {p : Params} {c : Bytes} {n : Nat} (h : p.nCmdMax = some n)
    (hlt : n < c.length) : overCmdMax p c = true := by
  simp [overCmdMax, h, hlt]

/-! ### Draws -/

theorem dropBit_of_cons {e : Env} {b : Bool} {ds : List Bool} (h : e.d = b :: ds) :
    dropBit e = { e with d := ds } := by
  simp [dropBit, h]

theorem dropBit_of_nil {e : Env} (h : e.d = []) : dropBit e = { e with drawn := e.drawn + 1 } := by
  simp [dropBit, h]

theorem dropRx_of_cons {e : Env} {u : XUnit} {us : List XUnit} (h : e.rx = u :: us) :
    dropRx e = { e with rx := us } := by
  simp [dropRx, h]

theorem dropRx_of_nil {e : Env} (h : e.rx = []) : dropRx e = { e with drawn := e.drawn + 1 } := by
  simp [dropRx, h]

theorem dropTxrx_of_cons {e : Env} {u : XUnit} {us : List XUnit} (h : e.txrx = u :: us) :
    dropTxrx e = { e with txrx := us } := by
  simp [dropTxrx, h]

theorem dropTxrx_of_nil {e : Env} (h : e.txrx = []) :
    dropTxrx e = { e with drawn := e.drawn + 1 } := by
  simp [dropTxrx, h]

/-! ### One turn of a receive loop, in the two phases that share it (rules R159, R168) -/

section ReceiveTurn
variable {s : State} (self after : Phase)

theorem receiveTurn_end (hb : nextBit s = false) :
    receiveTurn self after s = goto after (sampleLine s) := by
  simp [receiveTurn, hb]

theorem receiveTurn_idle (hb : nextBit s = true)
    (hu : nextRx (sampleLine s) = ⟨s.cfg.idleByte, s.cfg.idleByte⟩) :
    receiveTurn self after s = goto self (readUnit (sampleLine s)) := by
  have hk : filtKeep s.cfg (swapUnit (nextRx (sampleLine s))) = false :=
    Bool.eq_false_iff.2 fun h => (filtKeep_swapUnit_iff _ _).1 h hu
  simp [receiveTurn, hb, receiveUnit, hk, accUnit_drop s.cfg s.raw _ hk, goto_eq]

theorem receiveTurn_keep (hb : nextBit s = true)
    (hu : nextRx (sampleLine s) ≠ ⟨s.cfg.idleByte, s.cfg.idleByte⟩)
    (hn : ∀ n, s.cfg.nRawMax = some n → s.raw.length + 2 ≤ n) :
    receiveTurn self after s = goto self { readUnit (sampleLine s) with
      raw := s.raw ++ [(nextRx (sampleLine s)).second, (nextRx (sampleLine s)).first] } := by
  have hk := (filtKeep_swapUnit_iff s.cfg _).2 hu
  have ho := (overRawMax_eq_false_iff s.cfg s.raw).2 hn
  simp [receiveTurn, hb, receiveUnit, ho, accUnit_keep s.cfg s.raw _ hk]

theorem receiveTurn_overflow {n : Nat} (hb : nextBit s = true)
    (hu : nextRx (sampleLine s) ≠ ⟨s.cfg.idleByte, s.cfg.idleByte⟩)
    (hn : s.cfg.nRawMax = some n) (hlt : n < s.raw.length + 2) :
    receiveTurn self after s = faultEntry .fOverflow self (readUnit (sampleLine s)) := by
  have hk := (filtKeep_swapUnit_iff s.cfg _).2 hu
  simp [receiveTurn, hb, receiveUnit, hk, overRawMax, hn, hlt]

end ReceiveTurn

/-! ### One turn of a busy-wait, in the two phases that share it (rules R167, R170) -/

section WaitTurn
variable {s : State} (self after : Phase)

theorem waitTurn_go (hb : nextBit s = true) :
    waitTurn self after s = goto after (sampleLine s) := by
  simp [waitTurn, hb]

theorem waitTurn_unbounded (hb : nextBit s = false) (ht : s.cfg.timeoutPolls = none) :
    waitTurn self after s = goto self (sampleLine s) := by
  rw [waitTurn, hb, timeoutNow, timeoutAfter, ht, countZero_absent (sampleLine s) ht]
  rfl

theorem waitTurn_count {n : Nat} (hb : nextBit s = false) (ht : s.cfg.timeoutPolls = some n)
    (hn : s.tocnt + 1 ≠ n) :
    waitTurn self after s = goto self { sampleLine s with tocnt := s.tocnt + 1 } := by
  rw [waitTurn, hb, timeoutNow, timeoutAfter, ht, countZero_present (sampleLine s) n ht]
  simp [hn]

theorem waitTurn_timeout (hb : nextBit s = false) (ht : s.cfg.timeoutPolls = some (s.tocnt + 1)) :
    waitTurn self after s = faultEntry .fTimeout self (sampleLine s) := by
  rw [waitTurn, hb, (timeoutNow_iff s).2 ht]
  rfl

end WaitTurn

/-! ### One turn of a WAITRDY presented by itself (rule R139, assumptions 12 and 25) -/

theorem exec_waitrdy_end {s : State} (hb : nextBit s = true) :
    exec .waitrdy s = .next (deliver (.bit true) (clearPolls (sampleLine s))) := by
  simp [exec, execWaitrdy, hb]

theorem exec_waitrdy_unbounded {s : State} (hb : nextBit s = false)
    (ht : s.cfg.timeoutPolls = none) :
    exec .waitrdy s = .next { sampleLine s with inbox := .word [0x03, 2] :: s.inbox } := by
  rw [exec, execWaitrdy, hb, timeoutAfter, ht, countPoll_absent (sampleLine s) ht]
  rfl

theorem exec_waitrdy_count {s : State} {n : Nat} (hb : nextBit s = false)
    (ht : s.cfg.timeoutPolls = some n) (hn : s.polls + 1 ≠ n) :
    exec .waitrdy s = .next { sampleLine s with
      polls := s.polls + 1, inbox := .word [0x03, 2] :: s.inbox } := by
  rw [exec, execWaitrdy, hb, timeoutAfter, ht, countPoll_present (sampleLine s) n ht]
  simp [hn, encode]

theorem exec_waitrdy_timeout {s : State} (hb : nextBit s = false)
    (ht : s.cfg.timeoutPolls = some (s.polls + 1)) :
    exec .waitrdy s = .next (faultEntry .fTimeout s.phase (clearPolls (sampleLine s))) := by
  rw [exec, execWaitrdy, hb, (timeoutAfter_iff _ _).2 ht]
  rfl

/-! ### The remaining rows as equations -/

theorem exec_sIDrain (s : State) : exec .sIDrain s = .next (receiveTurn .iDrain .iCheck s) := rfl

theorem exec_sXRx (s : State) : exec .sXRx s = .next (receiveTurn .xRx .xDesel3 s) := rfl

theorem exec_sXWait1 (s : State) : exec .sXWait1 s = .next (waitTurn .xWait1 .xRx s) := rfl

theorem exec_sXWait2 (s : State) : exec .sXWait2 s = .next (waitTurn .xWait2 .xClean s) := rfl

theorem exec_sXSel2 (s : State) :
    exec .sXSel2 s = .next (goto .xWait1 (clearTocnt (selectLine s))) := rfl

theorem exec_sXDesel3 (s : State) :
    exec .sXDesel3 s = .next (goto .xWait2 (clearTocnt (deselectLine s))) := rfl

theorem exec_sXTx (s : State) :
    exec .sXTx s = .next (goto (if s.txi + 1 = s.txbuf.length / 2 then .xDesel2 else .xTx)
      { exchange (packAt s.txbuf s.txi) s with txi := s.txi + 1 }) := rfl

theorem exec_sICheck_match {s : State} (h : trimI s.cfg s.raw = s.cfg.idlePrompt) :
    exec .sICheck s = .next (goto .idle
      { s with resp := s.cfg.idlePrompt, initOk := true, done := true }) := by
  simp [exec, execSICheck, checkMatch_eq_decide, h]

theorem exec_sICheck_differ {s : State} (h : trimI s.cfg s.raw ≠ s.cfg.idlePrompt) :
    exec .sICheck s = .next (faultEntry .fInit .iCheck { s with resp := trimI s.cfg s.raw }) := by
  simp [exec, execSICheck, checkMatch_eq_decide, h]

theorem exec_sample (s : State) :
    exec .sample s = .next (deliver (.bit (nextBit s)) (sampleLine s)) := rfl

theorem exec_xchg (u : XUnit) (s : State) :
    exec (.xchg u) s = .next (deliver (.unit (nextTxrx s)) (exchange u s)) := rfl

theorem exec_rd (s : State) : exec .rd s = .next (deliver (.unit (nextRx s)) (readUnit s)) := rfl

theorem exec_hardReset (s : State) : exec .hardReset s = .next (rstRelease (rstAssert s)) := rfl

theorem exec_toggle (s : State) : exec .toggle s = .next (selectLine (deselectLine s)) := rfl

theorem raiseAlone_of_exists {f : FaultKind} {s : State} (h : f.existsAt s.cfg = true) :
    raiseAlone f s = faultEntry f s.phase s := by
  rw [raiseAlone, if_pos h]

theorem raiseAlone_of_not_exists {f : FaultKind} {s : State} (h : f.existsAt s.cfg = false) :
    raiseAlone f s = s := by
  rw [raiseAlone, if_neg (by simp [h])]

/-- The reserved rows stop under the code of the phase (rules R93, R175). -/
theorem exec_reserved (k : Fin 13) (s : State) :
    exec (phaseRow (.reserved k)) s =
      .fault (.stuckReservedPhase (BitVec.ofNat 5 (19 + k.val))) := by
  fin_cases k <;> rfl

/-! ### The obligations about fetching, block reset and offers -/

/-- Settles O1: `step` is fetch, decode, perform. -/
theorem stepRunsTheDecodedOperation : Obligations.StepRunsTheDecodedOperation :=
  ⟨step_of_decode, fun s h => by simp [fetch, h, phaseWord],
    fun s rest h => by simp [fetch, h, phaseWord], fun s w rest h => by simp [fetch, h]⟩

/-- Settles O5: the values of rule R53. -/
theorem resetValues : Obligations.ResetValues :=
  ⟨rfl, rfl, rfl, rfl, rfl, rfl, rfl, rfl, rfl, rfl, rfl, rfl, rfl⟩

/-- Settles O6: by whether a line stands at 1. -/
theorem blockResetFromAnyState : Obligations.BlockResetFromAnyState := by
  refine ⟨fun s rest h hc hr => ?_, fun s rest h hl => ?_, fun s rest h => ?_⟩
  · exact (step_of_inbox_blockReset s rest h).trans
      (congrArg _ (blockReset_of_lines_low { s with inbox := rest } hc hr))
  · exact (step_of_inbox_blockReset s rest h).trans
      (congrArg _ (blockReset_of_line_high { s with inbox := rest } hl))
  · exact ⟨_, step_of_inbox_blockReset s rest h, portTrace_blockReset _⟩

/-- Settles O7: both acceptances. -/
theorem offersAccepted : Obligations.OffersAccepted :=
  ⟨fun _ h => exec_init_accepted h, fun _ _ h hc => exec_exec_accepted h hc⟩

/-- Settles O8: the first reason that holds is the one named. -/
theorem offersRefusedInOrder : Obligations.OffersRefusedInOrder := by
  refine ⟨fun s op h hop => ?_, fun s op hu hi hf hop => ?_, fun s c h => ?_,
    fun s c n h hn hlt => ?_⟩
  · exact exec_offer_of_refusal (refusalOf_of_fault h) hop
  · have hbusy : busy s = true := by
      rw [← Bool.not_eq_false, busy_eq_false_iff]
      simp [hu, hi, hf]
    exact exec_offer_of_refusal (refusalOf_of_busy hbusy) hop
  · exact exec_exec_of_refusal (refusalOf_exec_of_uninit h c)
  · have hlong := overCmdMax_eq_true_of_lt hn hlt
    exact exec_exec_of_refusal (by rw [refusalOf_exec_of_idle h c, if_pos hlong])

/-- Settles O9: the flags as they stand, `BUSY` outside the resting phases. -/
theorem hostReads : Obligations.HostReads := fun s =>
  ⟨rfl, rfl, rfl, rfl, busy_eq_false_iff s, rfl⟩

/-! ### The obligations about resting and reserved codes -/

/-- Settles O11: each of the three rows answers the state it is given. -/
theorem restingPhasesWriteNothing : Obligations.RestingPhasesWriteNothing := fun _ =>
  ⟨rfl, rfl, rfl⟩

/-- Settles O12: a reserved `PHASE` performs the row of its code. -/
theorem reservedCodesAreStuck : Obligations.ReservedCodesAreStuck := by
  refine ⟨fun _ => rfl, fun _ _ => rfl, fun _ _ => rfl, fun _ => rfl, fun s k hi hp => ?_⟩
  rw [step_of_inbox_nil s hi, hp, exec_reserved]

/-! ### The obligations about the phases -/

/-- Settles O15: the four outcomes of a turn, in the drain. -/
theorem drainTurn : Obligations.DrainTurn := by
  rintro s m rfl
  simp only [exec_sIDrain]
  exact ⟨fun hb => congrArg _ (receiveTurn_end _ _ hb),
    fun hb hu => congrArg _ (receiveTurn_idle _ _ hb hu),
    fun hb hu hn => congrArg _ (receiveTurn_keep _ _ hb hu hn),
    fun n hb hu hn hlt => congrArg _ (receiveTurn_overflow _ _ hb hu hn hlt)⟩

/-- Settles O16: the four outcomes of a turn, in the receive loop. -/
theorem receiveTurn_outcomes : Obligations.ReceiveTurn := by
  rintro s m rfl
  simp only [exec_sXRx]
  exact ⟨fun hb => congrArg _ (receiveTurn_end _ _ hb),
    fun hb hu => congrArg _ (receiveTurn_idle _ _ hb hu),
    fun hb hu hn => congrArg _ (receiveTurn_keep _ _ hb hu hn),
    fun n hb hu hn hlt => congrArg _ (receiveTurn_overflow _ _ hb hu hn hlt)⟩

/-- Settles O17: both outcomes of the comparison. -/
theorem checkPhase : Obligations.CheckPhase :=
  ⟨fun _ h => exec_sICheck_match h, fun _ h => exec_sICheck_differ h⟩

/-- Settles O18: what `TRIMI` leaves does not end in `IDLE_BYTE`, so it is not the prompt. -/
theorem promptEndingInIdleNeverMatches : Obligations.PromptEndingInIdleNeverMatches := by
  intro s h
  have hdiffer : trimI s.cfg s.raw ≠ s.cfg.idlePrompt := fun heq =>
    getLast?_trimI_ne s.cfg s.raw (by rw [heq, h])
  exact ⟨_, exec_sICheck_differ hdiffer, rfl, rfl, rfl⟩

/-- Settles O21: `TOCNT` is cleared when present. -/
theorem phasesThatEnterAWait : Obligations.PhasesThatEnterAWait := by
  intro s
  refine ⟨fun ht => ?_, fun n ht => ?_⟩
  · rw [exec_sXSel2, exec_sXDesel3, clearTocnt_absent (selectLine s) ht,
      clearTocnt_absent (deselectLine s) ht]
    exact ⟨rfl, rfl⟩
  · rw [exec_sXSel2, exec_sXDesel3, clearTocnt_present (selectLine s) n ht,
      clearTocnt_present (deselectLine s) n ht]
    exact ⟨rfl, rfl⟩

/-- Settles O22: the unit sent is `PACK` of the two bytes. -/
theorem transmitPhase : Obligations.TransmitPhase := by
  refine ⟨two_le_pad_length, fun s a b ha hb => ?_⟩
  rw [exec_sXTx, packAt_of_bytes s.txbuf s.txi a b ha hb]
  exact ⟨fun h => by rw [if_pos h]; rfl, fun h => by rw [if_neg h]; rfl⟩

/-- Settles O23: the level of `CS` is the invariant's, the outcomes are those of a turn. -/
theorem waitTurns : Obligations.WaitTurns := by
  refine ⟨fun s hinv => ⟨fun hp => hinv.csAt true (by rw [hp]; rfl),
    fun hp => hinv.csAt false (by rw [hp]; rfl)⟩, ?_⟩
  rintro s m rfl
  simp only [exec_sXWait1, exec_sXWait2]
  refine ⟨fun hb => ⟨?_, ?_⟩, fun hb ht => ⟨?_, ?_⟩, fun n hb ht hn => ⟨?_, ?_⟩,
    fun n hb ht hn => ⟨?_, ?_⟩⟩
  · exact congrArg _ (waitTurn_go _ _ hb)
  · exact congrArg _ (waitTurn_go _ _ hb)
  · exact congrArg _ (waitTurn_unbounded _ _ hb ht)
  · exact congrArg _ (waitTurn_unbounded _ _ hb ht)
  · exact congrArg _ (waitTurn_count _ _ hb ht hn)
  · exact congrArg _ (waitTurn_count _ _ hb ht hn)
  · exact congrArg _ (waitTurn_timeout _ _ hb (hn ▸ ht))
  · exact congrArg _ (waitTurn_timeout _ _ hb (hn ▸ ht))

/-! ### The obligations about the primitives and the fault codes -/

/-- Settles O25: each row is its line write. -/
theorem linePrimitives : Obligations.LinePrimitives := fun _ => ⟨rfl, rfl, rfl, rfl⟩

/-- Settles O26: a listed draw, or the free value when none is listed. -/
theorem dataPrimitives : Obligations.DataPrimitives := by
  refine ⟨fun s d ds h => ?_, fun s u w ws h => ?_, fun s w ws h => ?_,
    fun s h => ⟨nextBit s, ?_⟩, fun s u h => ⟨nextTxrx s, ?_⟩, fun s h => ⟨nextRx s, ?_⟩⟩
  · rw [exec_sample, ← dropBit_of_cons h, ← nextBit_of_cons s d ds h]; rfl
  · rw [exec_xchg, ← dropTxrx_of_cons h, ← nextTxrx_of_cons s w ws h]; rfl
  · rw [exec_rd, ← dropRx_of_cons h, ← nextRx_of_cons s w ws h]; rfl
  · rw [exec_sample, ← dropBit_of_nil h]; rfl
  · rw [exec_xchg, ← dropTxrx_of_nil h]; rfl
  · rw [exec_rd, ← dropRx_of_nil h]; rfl

/-- Settles O27: two line writes, so two items at the end of the trace. -/
theorem resetAndToggle : Obligations.ResetAndToggle := by
  intro s
  rw [exec_hardReset, exec_toggle, rstRelease_eq, rstAssert_eq, selectLine_eq, deselectLine_eq]
  simp

/-- Settles O28: the four outcomes of a turn. -/
theorem waitReadyTurn : Obligations.WaitReadyTurn := by
  rintro s m rfl
  exact ⟨fun hb => exec_waitrdy_end hb, fun hb ht => exec_waitrdy_unbounded hb ht,
    fun n hb ht hn => exec_waitrdy_count hb ht hn,
    fun n hb ht hn => exec_waitrdy_timeout hb (hn ▸ ht)⟩

/-- Settles O44: a code raises its fault where the fault exists. -/
theorem faultCodeRows : Obligations.FaultCodeRows := by
  intro s
  refine ⟨rfl, rfl, fun n hn => ?_, fun hn => ?_, fun n hn => ?_, fun hn => ?_⟩
  · exact congrArg _ (raiseAlone_of_exists (f := .fTimeout) (by simp [FaultKind.existsAt, hn]))
  · exact congrArg _ (raiseAlone_of_not_exists (f := .fTimeout) (by simp [FaultKind.existsAt, hn]))
  · exact congrArg _ (raiseAlone_of_exists (f := .fOverflow) (by simp [FaultKind.existsAt, hn]))
  · exact congrArg _ (raiseAlone_of_not_exists (f := .fOverflow) (by simp [FaultKind.existsAt, hn]))

end Sys2Proof.Machine
end

section
/-! What the block's own step can do, said once as a relation: one constructor for each arc of the
transition table (`43_choreography_fsm.md` rule R172), and for a resting phase the step to the same
state. The whole-machine obligations are case analyses of it. -/

namespace Sys2Proof.Machine

/-- The two phases that receive, each with the phase it goes on to (rules R159, R168). -/
def ReceiveArc (self after : Phase) : Prop :=
  self = .iDrain ∧ after = .iCheck ∨ self = .xRx ∧ after = .xDesel3

/-- The two busy-waits, each with the phase it goes on to (rules R167, R170). -/
def WaitArc (self after : Phase) : Prop :=
  self = .xWait1 ∧ after = .xRx ∨ self = .xWait2 ∧ after = .xClean

/-- The block's own step from `s`, by the phase and what is drawn. -/
inductive BlockStep (s : State) : State → Prop where
  | rest (hp : s.phase.resting = true) : BlockStep s s
  | assertReset (hp : s.phase = .iRsta) : BlockStep s (goto .iRstr (rstAssert s))
  | releaseReset (hp : s.phase = .iRstr) : BlockStep s (goto .iSel (rstRelease s))
  | initSelect (hp : s.phase = .iSel) : BlockStep s (goto .iDrain { selectLine s with raw := [] })
  | checkMatch (hp : s.phase = .iCheck) (hm : trimI s.cfg s.raw = s.cfg.idlePrompt) :
    BlockStep s (goto .idle { s with resp := s.cfg.idlePrompt, initOk := true, done := true })
  | checkDiffer (hp : s.phase = .iCheck) (hm : trimI s.cfg s.raw ≠ s.cfg.idlePrompt) :
    BlockStep s (faultEntry .fInit .iCheck { s with resp := trimI s.cfg s.raw })
  | pad (hp : s.phase = .xPad) :
    BlockStep s (goto .xDesel1 { s with txbuf := pad s.cmd, txi := 0, raw := [] })
  | deselect1 (hp : s.phase = .xDesel1) : BlockStep s (goto .xSel1 (deselectLine s))
  | select1 (hp : s.phase = .xSel1) : BlockStep s (goto .xTx (selectLine s))
  | sendLast (hp : s.phase = .xTx) (hl : s.txi + 1 = s.txbuf.length / 2) :
    BlockStep s (goto .xDesel2 { exchange (packAt s.txbuf s.txi) s with txi := s.txi + 1 })
  | sendMore (hp : s.phase = .xTx) (hl : s.txi + 1 ≠ s.txbuf.length / 2) :
    BlockStep s (goto .xTx { exchange (packAt s.txbuf s.txi) s with txi := s.txi + 1 })
  | deselect2 (hp : s.phase = .xDesel2) : BlockStep s (goto .xSel2 (deselectLine s))
  | select2 (hp : s.phase = .xSel2) : BlockStep s (goto .xWait1 (clearTocnt (selectLine s)))
  | deselect3 (hp : s.phase = .xDesel3) : BlockStep s (goto .xWait2 (clearTocnt (deselectLine s)))
  | clean (hp : s.phase = .xClean) :
    BlockStep s (goto .idle { s with resp := cleanRaw s.cfg s.raw, done := true })
  | receiveEnd {after : Phase} (ha : ReceiveArc s.phase after) (hb : nextBit s = false) :
    BlockStep s (goto after (sampleLine s))
  | receiveIdle {after : Phase} (ha : ReceiveArc s.phase after) (hb : nextBit s = true)
      (hk : filtKeep s.cfg (swapUnit (nextRx (sampleLine s))) = false) :
    BlockStep s (goto s.phase (readUnit (sampleLine s)))
  | receiveOver {after : Phase} (ha : ReceiveArc s.phase after) (hb : nextBit s = true)
      (hk : filtKeep s.cfg (swapUnit (nextRx (sampleLine s))) = true)
      (ho : overRawMax s.cfg s.raw = true) :
    BlockStep s (faultEntry .fOverflow s.phase (readUnit (sampleLine s)))
  | receiveKeep {after : Phase} (ha : ReceiveArc s.phase after) (hb : nextBit s = true)
      (hk : filtKeep s.cfg (swapUnit (nextRx (sampleLine s))) = true)
      (ho : overRawMax s.cfg s.raw = false) :
    BlockStep s (goto s.phase { readUnit (sampleLine s) with
      raw := s.raw ++ [(nextRx (sampleLine s)).second, (nextRx (sampleLine s)).first] })
  | waitGo {after : Phase} (ha : WaitArc s.phase after) (hb : nextBit s = true) :
    BlockStep s (goto after (sampleLine s))
  | waitTimeout {after : Phase} (ha : WaitArc s.phase after) (hb : nextBit s = false)
      (ht : s.cfg.timeoutPolls = some (s.tocnt + 1)) :
    BlockStep s (faultEntry .fTimeout s.phase (sampleLine s))
  | waitAgain {after : Phase} (ha : WaitArc s.phase after) (hb : nextBit s = false)
      (ht : s.cfg.timeoutPolls ≠ some (s.tocnt + 1)) :
    BlockStep s (goto s.phase (countZero (sampleLine s)))

/-! ### The relation is the machine's -/

theorem blockStep_receiveTurn {s : State} {after : Phase} (ha : ReceiveArc s.phase after) :
    BlockStep s (receiveTurn s.phase after s) := by
  rcases receiveTurn_cases s.phase after s with ⟨hb, hr⟩ | ⟨hb, hr⟩
  · rw [hr]; exact .receiveEnd ha hb
  · rw [hr]
    rcases receiveUnit_cases s.phase (sampleLine s) with
      ⟨hk, hu⟩ | ⟨hk, ho, hu⟩ | ⟨hk, ho, hu⟩
    · rw [hu]; exact .receiveIdle ha hb hk
    · rw [hu]; exact .receiveOver ha hb hk ho
    · rw [hu]; exact .receiveKeep ha hb hk ho

theorem blockStep_waitTurn {s : State} {after : Phase} (ha : WaitArc s.phase after) :
    BlockStep s (waitTurn s.phase after s) := by
  rcases waitTurn_cases s.phase after s with ⟨hb, hw⟩ | ⟨hb, ht, hw⟩ | ⟨hb, ht, hw⟩
  · rw [hw]; exact .waitGo ha hb
  · rw [hw]; exact .waitTimeout ha hb ht
  · rw [hw]; exact .waitAgain ha hb ht

/-- Every named phase's row answers a next state, which the relation describes. -/
theorem exec_phaseRow_blockStep (s : State) (h : ∀ k, s.phase ≠ .reserved k) :
    ∃ t, exec (phaseRow s.phase) s = .next t ∧ BlockStep s t := by
  cases hp : s.phase with
  | uninit => exact ⟨s, rfl, .rest (by rw [hp]; rfl)⟩
  | idle => exact ⟨s, rfl, .rest (by rw [hp]; rfl)⟩
  | fault => exact ⟨s, rfl, .rest (by rw [hp]; rfl)⟩
  | iRsta => exact ⟨_, rfl, .assertReset hp⟩
  | iRstr => exact ⟨_, rfl, .releaseReset hp⟩
  | iSel => exact ⟨_, rfl, .initSelect hp⟩
  | iDrain =>
    have ha : ReceiveArc s.phase .iCheck := .inl ⟨hp, rfl⟩
    exact ⟨_, rfl, by simpa only [hp] using blockStep_receiveTurn ha⟩
  | iCheck =>
    by_cases hm : trimI s.cfg s.raw = s.cfg.idlePrompt
    · exact ⟨_, exec_sICheck_match hm, .checkMatch hp hm⟩
    · exact ⟨_, exec_sICheck_differ hm, .checkDiffer hp hm⟩
  | xPad => exact ⟨_, rfl, .pad hp⟩
  | xDesel1 => exact ⟨_, rfl, .deselect1 hp⟩
  | xSel1 => exact ⟨_, rfl, .select1 hp⟩
  | xTx =>
    refine ⟨_, exec_sXTx s, ?_⟩
    split
    next hl => exact .sendLast hp hl
    next hl => exact .sendMore hp hl
  | xDesel2 => exact ⟨_, rfl, .deselect2 hp⟩
  | xSel2 => exact ⟨_, rfl, .select2 hp⟩
  | xWait1 =>
    have ha : WaitArc s.phase .xRx := .inl ⟨hp, rfl⟩
    exact ⟨_, rfl, by simpa only [hp] using blockStep_waitTurn ha⟩
  | xRx =>
    have ha : ReceiveArc s.phase .xDesel3 := .inr ⟨hp, rfl⟩
    exact ⟨_, rfl, by simpa only [hp] using blockStep_receiveTurn ha⟩
  | xDesel3 => exact ⟨_, rfl, .deselect3 hp⟩
  | xWait2 =>
    have ha : WaitArc s.phase .xClean := .inr ⟨hp, rfl⟩
    exact ⟨_, rfl, by simpa only [hp] using blockStep_waitTurn ha⟩
  | xClean => exact ⟨_, rfl, .clean hp⟩
  | reserved k => exact absurd hp (h k)

/-- A next state of a phase's row is one of the relation. -/
theorem blockStep_of_exec {s t : State} (h : exec (phaseRow s.phase) s = .next t) :
    BlockStep s t := by
  have hk : ∀ k, s.phase ≠ .reserved k := fun k hp => exec_reserved_ne_next k s t (hp ▸ h)
  obtain ⟨t', ht', hstep⟩ := exec_phaseRow_blockStep s hk
  rw [ht'] at h
  cases h
  exact hstep

end Sys2Proof.Machine
end

section
/-! What the relation of the block's step implies for phases, elements and port actions, the
inversion of a whole step, and the whole-machine obligations that need no invariant. -/

namespace Sys2Proof.Machine

/-! ### Elements and their writers (rules R32 to R36, R39, R40, R42 to R44, R47) -/

/-- Without a bound the count is not there; with one it is written. Nothing else is. -/
theorem clearTocnt_eq (s : State) : ∃ n, clearTocnt s = { s with tocnt := n } := by
  cases h : s.cfg.timeoutPolls with
  | none => exact ⟨s.tocnt, clearTocnt_absent s h⟩
  | some n => exact ⟨0, clearTocnt_present s n h⟩

theorem countZero_eq (s : State) : ∃ n, countZero s = { s with tocnt := n } := by
  cases h : s.cfg.timeoutPolls with
  | none => exact ⟨s.tocnt, countZero_absent s h⟩
  | some n => exact ⟨s.tocnt + 1, countZero_present s n h⟩

section Writers
variable {s t : State} (h : BlockStep s t)
include h

theorem BlockStep.cmd_eq : t.cmd = s.cmd := by
  cases h <;> simp

theorem BlockStep.inbox_eq : t.inbox = s.inbox := by
  cases h <;> simp

theorem BlockStep.txbuf_eq (hp : s.phase ≠ .xPad) : t.txbuf = s.txbuf := by
  cases h
  case pad hp' => exact absurd hp' hp
  all_goals simp

theorem BlockStep.txi_eq (hp : ¬(s.phase = .xPad ∨ s.phase = .xTx)) : t.txi = s.txi := by
  cases h
  case pad hp' => exact absurd (.inl hp') hp
  case sendLast hp' _ | sendMore hp' _ => exact absurd (.inr hp') hp
  all_goals simp

theorem BlockStep.raw_eq
    (hp : ¬(s.phase = .iSel ∨ s.phase = .iDrain ∨ s.phase = .xPad ∨ s.phase = .xRx)) :
    t.raw = s.raw := by
  cases h
  case initSelect hp' => exact absurd (.inl hp') hp
  case pad hp' => exact absurd (.inr (.inr (.inl hp'))) hp
  case receiveKeep ha _ _ _ =>
    exact absurd (ha.elim (fun h => .inr (.inl h.1)) fun h => .inr (.inr (.inr h.1))) hp
  all_goals simp

theorem BlockStep.resp_eq (hp : ¬(s.phase = .iCheck ∨ s.phase = .xClean)) : t.resp = s.resp := by
  cases h
  case checkMatch hp' _ | checkDiffer hp' _ => exact absurd (.inl hp') hp
  case clean hp' => exact absurd (.inr hp') hp
  all_goals simp

theorem BlockStep.cs_eq (hp : ¬(s.phase = .iSel ∨ s.phase = .xDesel1 ∨ s.phase = .xSel1 ∨
    s.phase = .xDesel2 ∨ s.phase = .xSel2 ∨ s.phase = .xDesel3)) : t.cs = s.cs := by
  cases h
  case initSelect hp' | deselect1 hp' | select1 hp' | deselect2 hp' | select2 hp' | deselect3 hp' =>
    simp [hp'] at hp
  all_goals simp

theorem BlockStep.rst_eq (hp : ¬(s.phase = .iRsta ∨ s.phase = .iRstr)) : t.rst = s.rst := by
  cases h
  case assertReset hp' => exact absurd (.inl hp') hp
  case releaseReset hp' => exact absurd (.inr hp') hp
  all_goals simp

theorem BlockStep.initOk_eq (hp : s.phase ≠ .iCheck) : t.initOk = s.initOk := by
  cases h
  case checkMatch hp' _ => exact absurd hp' hp
  all_goals simp

theorem BlockStep.err_errcode_eq (hp : ¬(s.phase = .iCheck ∨ s.phase = .iDrain ∨ s.phase = .xRx ∨
    s.phase = .xWait1 ∨ s.phase = .xWait2)) : t.err = s.err ∧ t.errcode = s.errcode := by
  cases h
  case checkDiffer hp' _ => exact absurd (.inl hp') hp
  case receiveOver ha _ _ _ => rcases ha with ⟨hp', -⟩ | ⟨hp', -⟩ <;> simp [hp'] at hp
  case waitTimeout ha _ _ => rcases ha with ⟨hp', -⟩ | ⟨hp', -⟩ <;> simp [hp'] at hp
  all_goals simp

theorem BlockStep.done_eq (hp : ¬(s.phase = .iCheck ∨ s.phase = .xClean)) : t.done = s.done := by
  cases h
  case checkMatch hp' _ => exact absurd (.inl hp') hp
  case clean hp' => exact absurd (.inr hp') hp
  all_goals simp

theorem BlockStep.tocnt_eq (hp : ¬(s.phase = .xSel2 ∨ s.phase = .xDesel3 ∨ s.phase = .xWait1 ∨
    s.phase = .xWait2)) : t.tocnt = s.tocnt := by
  cases h
  case select2 hp' | deselect3 hp' => simp [hp'] at hp
  case waitAgain ha _ _ => rcases ha with ⟨hp', -⟩ | ⟨hp', -⟩ <;> simp [hp'] at hp
  all_goals simp

/-! ### Where a step leads -/

/-- A step that comes to rest in S_IDLE ends an INIT or an EXEC (rules R160, R171). -/
theorem BlockStep.of_reaches_idle (hs : s.phase ≠ .idle) (ht : t.phase = .idle) :
    (s.phase = .iCheck ∧ t = goto .idle
      { s with resp := s.cfg.idlePrompt, initOk := true, done := true }) ∨
    (s.phase = .xClean ∧ t = goto .idle { s with resp := cleanRaw s.cfg s.raw, done := true }) := by
  cases h
  case rest => exact absurd ht hs
  case checkMatch hp _ => exact .inl ⟨hp, rfl⟩
  case clean hp => exact .inr ⟨hp, rfl⟩
  case receiveEnd ha _ => rcases ha with ⟨-, rfl⟩ | ⟨-, rfl⟩ <;> cases ht
  case waitGo ha _ => rcases ha with ⟨-, rfl⟩ | ⟨-, rfl⟩ <;> cases ht
  case receiveIdle | receiveKeep | waitAgain => exact absurd ht hs
  all_goals cases ht

/-- A step into S_FAULT takes the entry of the phase's fault (rules R190, R197). -/
theorem BlockStep.of_reaches_fault (hs : s.phase ≠ .fault) (ht : t.phase = .fault) :
    (s.phase = .iCheck ∧
      t = faultEntry .fInit .iCheck { s with resp := trimI s.cfg s.raw }) ∨
    ((s.phase = .xWait1 ∨ s.phase = .xWait2) ∧ s.cfg.timeoutPolls = some (s.tocnt + 1) ∧
      t = faultEntry .fTimeout s.phase (sampleLine s)) ∨
    ((s.phase = .iDrain ∨ s.phase = .xRx) ∧ overRawMax s.cfg s.raw = true ∧
      t = faultEntry .fOverflow s.phase (readUnit (sampleLine s))) := by
  cases h
  case rest => exact absurd ht hs
  case checkDiffer hp _ => exact .inl ⟨hp, rfl⟩
  case waitTimeout ha _ hto => exact .inr (.inl ⟨ha.imp And.left And.left, hto, rfl⟩)
  case receiveOver ha _ _ ho => exact .inr (.inr ⟨ha.imp And.left And.left, ho, rfl⟩)
  case receiveEnd ha _ => rcases ha with ⟨-, rfl⟩ | ⟨-, rfl⟩ <;> cases ht
  case waitGo ha _ => rcases ha with ⟨-, rfl⟩ | ⟨-, rfl⟩ <;> cases ht
  case receiveIdle | receiveKeep | waitAgain => exact absurd ht hs
  all_goals cases ht

/-- While the block stays busy `RESP` is stale (rule R237). -/
theorem BlockStep.resp_eq_of_busy (ht : busy t = true) : t.resp = s.resp := by
  cases h
  case checkMatch | checkDiffer | clean => simp [busy, Phase.resting] at ht
  all_goals simp

/-- The arc a step takes and its port actions (rule R172). -/
theorem BlockStep.arc (hr : s.phase.resting = false) :
    ∃ acts, t.trace = s.trace ++ acts ∧
      (s.phase, t.phase, acts.map TraceItem.kind) ∈ stepArcs := by
  cases h
  case rest hp => simp [hp] at hr
  case assertReset hp => exact ⟨[.rsta], by simp, by simp [hp, stepArcs, TraceItem.kind]⟩
  case releaseReset hp => exact ⟨[.rstr], by simp, by simp [hp, stepArcs, TraceItem.kind]⟩
  case initSelect hp | select1 hp | select2 hp =>
    exact ⟨[.sel], by simp, by simp [hp, stepArcs, TraceItem.kind]⟩
  case deselect1 hp | deselect2 hp | deselect3 hp =>
    exact ⟨[.desel], by simp, by simp [hp, stepArcs, TraceItem.kind]⟩
  case checkMatch hp _ | checkDiffer hp _ | pad hp | clean hp =>
    exact ⟨[], by simp, by simp [hp, stepArcs]⟩
  case sendLast hp _ | sendMore hp _ =>
    exact ⟨[.xchg (packAt s.txbuf s.txi)], by simp, by simp [hp, stepArcs, TraceItem.kind]⟩
  case receiveEnd ha hb =>
    refine ⟨[.sample false], by simp [hb], ?_⟩
    rcases ha with ⟨hp, rfl⟩ | ⟨hp, rfl⟩ <;> simp [hp, stepArcs, TraceItem.kind]
  case receiveIdle ha hb _ | receiveOver ha hb _ _ | receiveKeep ha hb _ _ =>
    refine ⟨[.sample true, .rd s.cfg.padByte], by simp [hb], ?_⟩
    rcases ha with ⟨hp, -⟩ | ⟨hp, -⟩ <;> simp [hp, stepArcs, TraceItem.kind]
  case waitGo ha hb =>
    refine ⟨[.sample true], by simp [hb], ?_⟩
    rcases ha with ⟨hp, rfl⟩ | ⟨hp, rfl⟩ <;> simp [hp, stepArcs, TraceItem.kind]
  case waitTimeout ha hb _ | waitAgain ha hb _ =>
    refine ⟨[.sample false], by simp [hb], ?_⟩
    rcases ha with ⟨hp, -⟩ | ⟨hp, -⟩ <;> simp [hp, stepArcs, TraceItem.kind]

end Writers

/-! ### The inversion of a whole step -/

/-- The state with the first pending event taken. -/
def takeEvent (s : State) : State := { s with inbox := s.inbox.tail }

/-- What an answered offer can be: a refusal or one of the two acceptances (rule R150). -/
inductive OfferStep (s : State) : State → Prop where
  | refused (r : RefuseReason) : OfferStep s (refuse r s)
  | init (hp : s.phase = .uninit ∨ s.phase = .idle) : OfferStep s (acceptInit s)
  | exec (c : Bytes) (hp : s.phase = .idle) (hc : overCmdMax s.cfg c = false) :
    OfferStep s (acceptExec c s)

theorem offerStep_of_init {s t : State} (h : execInit s = .next t) : OfferStep s t := by
  rcases execInit_cases s with ⟨r, hr⟩ | ⟨hp, ha⟩
  · cases h.symm.trans hr; exact .refused r
  · cases h.symm.trans ha; exact .init hp

theorem offerStep_of_exec {c : Bytes} {s t : State} (h : execExec c s = .next t) :
    OfferStep s t := by
  rcases execExec_cases c s with ⟨r, hr⟩ | ⟨hp, hc, ha⟩
  · cases h.symm.trans hr; exact .refused r
  · cases h.symm.trans ha; exact .exec c hp hc

/-- With a host that does only what it may, a step is a block reset, an answered offer or the
block's own step, each from the state with the event taken. -/
theorem step_inv {s t : State} (hl : ∀ e ∈ s.inbox, e.hostLegal = true) (h : step s = .next t) :
    (s.inbox.head? = some .blockReset ∧ t = blockReset (takeEvent s)) ∨
    OfferStep (takeEvent s) t ∨ BlockStep (takeEvent s) t := by
  rcases step_cases s hl with ⟨r, hi, q⟩ | ⟨w, r, hi, q⟩ | ⟨w, r, c, hi, q⟩ | ⟨r, hi, q⟩
  · cases h.symm.trans q
    exact .inl ⟨by simp [hi], by simp [takeEvent, hi]⟩
  · exact .inr (.inl (offerStep_of_init (by simpa [takeEvent, hi] using q.symm.trans h)))
  · exact .inr (.inl (offerStep_of_exec (by simpa [takeEvent, hi] using q.symm.trans h)))
  · have hr : s.inbox.tail = r := by rcases hi with ⟨hi, rfl⟩ | hi <;> simp [hi]
    exact .inr (.inr (blockStep_of_exec (by simpa [takeEvent, hr] using q.symm.trans h)))

theorem step_inv_without_reset {s t : State} (hl : ∀ e ∈ s.inbox, e.hostLegal = true)
    (hb : s.inbox.head? ≠ some .blockReset) (h : step s = .next t) :
    OfferStep (takeEvent s) t ∨ BlockStep (takeEvent s) t :=
  (step_inv hl h).resolve_left fun hr => hb hr.1

/-- A host that does only what it may meets no stop in a named phase. -/
theorem step_next_of_named {s : State} (hl : ∀ e ∈ s.inbox, e.hostLegal = true)
    (hn : ∀ k, s.phase ≠ .reserved k) : ∃ t, step s = .next t := by
  rcases step_cases s hl with ⟨_, _, q⟩ | ⟨_, r, _, q⟩ | ⟨_, r, c, _, q⟩ | ⟨r, _, q⟩
  · exact ⟨_, q⟩
  · exact ⟨_, q⟩
  · exact ⟨_, q⟩
  · obtain ⟨t, ht, -⟩ := exec_phaseRow_blockStep { s with inbox := r } hn
    exact ⟨t, q.trans ht⟩

/-! ### The obligations -/

/-- Settles O47: the invariant names the phase and the host. -/
theorem invariantStatesNeverStop : Obligations.InvariantStatesNeverStop := fun _ hinv =>
  step_next_of_named hinv.legal hinv.named

/-- Settles O48: the block's own step takes an arc. -/
theorem stepsTakeTableArcs : Obligations.StepsTakeTableArcs := by
  intro s hi hu hidle hf hk
  obtain ⟨t, ht, hstep⟩ := exec_phaseRow_blockStep s hk
  have hr : s.phase.resting = false := by
    rw [← Bool.not_eq_true, resting_iff]; simp [hu, hidle, hf]
  obtain ⟨acts, htr, harc⟩ := hstep.arc hr
  exact ⟨t, acts, (step_of_inbox_nil s hi).trans ht, htr, harc⟩

/-- Settles O51: an offer is refused, the phase rests. -/
theorem faultPhaseIsAbsorbing : Obligations.FaultPhaseIsAbsorbing := by
  refine ⟨fun s hp hl hb => ?_, fun s rest _ hi => ?_⟩
  · rcases step_cases_without_reset s hl hb with ⟨op, q, hop⟩ | q
    · exact ⟨_, q.trans (exec_offer_of_refusal (refusalOf_of_fault hp) hop)⟩
    · exact ⟨s.reply, by rw [q, hp]; rfl⟩
  · exact ⟨_, step_of_inbox_blockReset s rest hi, rfl, rfl, rfl, portTrace_blockReset _⟩

/-- Settles O52: only the block's own step faults. -/
theorem faultsHaveTheirPhases : Obligations.FaultsHaveTheirPhases := by
  intro s t hl h hs ht
  rcases step_inv hl h with ⟨-, rfl⟩ | hoffer | hstep
  · cases ht
  · cases hoffer
    case refused => exact absurd ht hs
    case init | exec => cases ht
  · rcases hstep.of_reaches_fault hs ht with ⟨hp, rfl⟩ | ⟨hp, hto, rfl⟩ | ⟨hp, ho, rfl⟩
    · exact ⟨rfl, .inl ⟨hp, rfl, rfl⟩⟩
    · exact ⟨rfl, .inr (.inl ⟨hp, rfl, hto, rfl⟩)⟩
    · refine ⟨rfl, .inr (.inr ⟨hp, rfl, fun hn => ?_, rfl⟩)⟩
      have hno : overRawMax s.cfg s.raw = false :=
        (overRawMax_eq_false_iff _ _).2 fun n hsome => by simp [hn] at hsome
      exact Bool.false_ne_true (hno.symm.trans ho)

/-- Settles O53: the acceptances write as their rules say, the block's own step as its frame lemmas
say. -/
theorem elementsHaveTheirWriters : Obligations.ElementsHaveTheirWriters := by
  intro s t hl hb h
  rcases step_inv_without_reset hl hb h with hoffer | hstep
  · cases hoffer
    case refused => simp [takeEvent]
    case init hp => simp [takeEvent]; tauto
    case exec c hp _ => simp [takeEvent]; tauto
  · refine ⟨fun hne => absurd hstep.cmd_eq hne, not_imp_comm.1 hstep.txbuf_eq,
      not_imp_comm.1 hstep.txi_eq, not_imp_comm.1 hstep.raw_eq, not_imp_comm.1 hstep.resp_eq,
      not_imp_comm.1 hstep.cs_eq, not_imp_comm.1 hstep.rst_eq, fun hne => ?_, fun hne => ?_,
      fun hne => ?_, not_imp_comm.1 hstep.tocnt_eq⟩
    · exact .inr (.inr (not_imp_comm.1 hstep.initOk_eq hne))
    · exact not_imp_comm.1 hstep.err_errcode_eq fun heq => hne.elim (· heq.1) (· heq.2)
    · exact .inr (.inr (not_imp_comm.1 hstep.done_eq hne))

/-- Settles O10: an offer leaves `RESP`; the block's own step writes it where it ends. -/
theorem responseIsStaleUntilTheEnd : Obligations.ResponseIsStaleUntilTheEnd := by
  intro s t hl hb h
  rcases step_inv_without_reset hl hb h with hoffer | hstep
  · cases hoffer
    case refused =>
      exact ⟨fun _ => rfl, fun _ _ => rfl, fun hs ht => absurd ht hs,
        fun hs ht => by cases hs.symm.trans ht⟩
    case init | exec => exact ⟨fun _ => rfl, fun _ _ => rfl, nofun, nofun⟩
  · refine ⟨hstep.resp_eq_of_busy, fun ht hcode => ?_, fun hs ht => ?_, fun hs ht => ?_⟩
    · by_cases hs : s.phase = .fault
      · exact hstep.resp_eq (by simp [takeEvent, hs])
      · rcases hstep.of_reaches_fault hs ht with ⟨-, rfl⟩ | ⟨-, -, rfl⟩ | ⟨-, -, rfl⟩
        · rcases hcode with hcode | hcode <;> cases hcode
        · rfl
        · rfl
    · rcases hstep.of_reaches_idle hs ht with ⟨hp, rfl⟩ | ⟨hp, rfl⟩
      · exact .inl ⟨hp, rfl⟩
      · exact .inr ⟨hp, rfl⟩
    · have hne : (takeEvent s).phase ≠ .fault := by rw [takeEvent]; simp [hs]
      rcases hstep.of_reaches_fault hne ht with ⟨-, rfl⟩ | ⟨hp, -⟩ | ⟨hp, -⟩
      · rfl
      · rcases hp with hp | hp <;> cases hs.symm.trans hp
      · rcases hp with hp | hp <;> cases hs.symm.trans hp

end Sys2Proof.Machine
end

section
/-! What every operation keeps, whatever is presented to the machine: a property that survives the
actions on the port and looks at nothing but the lines, the trace and the parameters. -/

namespace Sys2Proof.Machine

/-- A property of `CS`, `RST`, the trace and the parameters that survives every action on the port
and block reset. -/
structure KeptByActions (P : State → Prop) : Prop where
  frame : ∀ {s t}, P s → t.cs = s.cs → t.rst = s.rst → t.trace = s.trace → t.cfg = s.cfg → P t
  rsta : ∀ {s}, P s → P (rstAssert s)
  rstr : ∀ {s}, P s → P (rstRelease s)
  sel : ∀ {s}, P s → P (selectLine s)
  desel : ∀ {s}, P s → P (deselectLine s)
  sample : ∀ {s}, P s → P (sampleLine s)
  xchg : ∀ {s} (u : XUnit), P s → P (exchange u s)
  rd : ∀ {s}, P s → P (readUnit s)
  reset : ∀ {s}, P s → P (blockReset s)

theorem of_next_eq {P : State → Prop} {a t : State}
    (h : (.next a : Host.Outcome State Fault Refusal) = .next t) (ha : P a) : P t := by
  cases h; exact ha

/-- The inversion of a step whatever is presented: block reset, or some operation performed from the
state with its event taken. -/
theorem step_inv_any {s t : State} (h : step s = .next t) :
    (∃ rest, t = blockReset { s with inbox := rest }) ∨
    ∃ i rest, exec i { s with inbox := rest } = .next t := by
  cases hi : s.inbox with
  | nil => exact .inr ⟨_, s.inbox, (step_of_inbox_nil s hi).symm.trans h⟩
  | cons e rest =>
    cases e with
    | run => exact .inr ⟨_, rest, (step_of_inbox_run s rest hi).symm.trans h⟩
    | blockReset =>
      cases h.symm.trans (step_of_inbox_blockReset s rest hi)
      exact .inl ⟨rest, rfl⟩
    | word w =>
      cases hd : decode w with
      | ok i => exact .inr ⟨i, rest, (step_of_inbox_word s w i rest hi hd).symm.trans h⟩
      | error e => simp [step, fetch, hi, hd] at h

namespace KeptByActions
variable {P : State → Prop} (hP : KeptByActions P)
include hP

theorem goto {s : State} (p : Phase) (hs : P s) : P (goto p s) := hP.frame hs rfl rfl rfl rfl

theorem faultEntry {s : State} (f : FaultKind) (p : Phase) (hs : P s) : P (faultEntry f p s) :=
  hP.frame hs rfl rfl rfl rfl

theorem clearTocnt {s : State} (hs : P s) : P (clearTocnt s) :=
  hP.frame hs (by simp) (by simp) (by simp) (by simp)

theorem waitTurn {s : State} (self after : Phase) (hs : P s) : P (waitTurn self after s) := by
  rcases waitTurn_cases self after s with ⟨-, h⟩ | ⟨-, -, h⟩ | ⟨-, -, h⟩ <;> rw [h]
  · exact hP.goto _ (hP.sample hs)
  · exact hP.faultEntry _ _ (hP.sample hs)
  · exact hP.frame (hP.sample hs) (by simp) (by simp) (by simp) (by simp)

theorem receiveTurn {s : State} (self after : Phase) (hs : P s) :
    P (receiveTurn self after s) := by
  rcases receiveTurn_cases self after s with ⟨-, h⟩ | ⟨-, h⟩ <;> rw [h]
  · exact hP.goto _ (hP.sample hs)
  · have hr : P (readUnit (sampleLine s)) := hP.rd (hP.sample hs)
    rcases receiveUnit_cases self (sampleLine s) with ⟨-, h⟩ | ⟨-, -, h⟩ | ⟨-, -, h⟩ <;> rw [h]
    · exact hP.goto _ hr
    · exact hP.faultEntry _ _ hr
    · exact hP.frame hr rfl rfl rfl rfl

theorem raiseAlone {s : State} (f : FaultKind) (hs : P s) : P (raiseAlone f s) := by
  rcases raiseAlone_cases f s with ⟨-, h⟩ | ⟨-, h⟩ <;> rw [h]
  · exact hP.faultEntry _ _ hs
  · exact hs

theorem offer {s t : State} (h : OfferStep s t) (hs : P s) : P t := by
  cases h <;> exact hP.frame hs rfl rfl rfl rfl

/-- Every operation keeps such a property. -/
theorem exec {i : Instr} {s t : State} (h : exec i s = .next t) (hs : P s) : P t := by
  cases i with
  | init => exact hP.offer (offerStep_of_init h) hs
  | exec c => exact hP.offer (offerStep_of_exec h) hs
  | sIRsta => exact of_next_eq h (hP.goto _ (hP.rsta hs))
  | sIRstr => exact of_next_eq h (hP.goto _ (hP.rstr hs))
  | sISel => exact of_next_eq h (hP.frame (hP.sel hs) rfl rfl rfl rfl)
  | sIDrain | sXRx => exact of_next_eq h (hP.receiveTurn _ _ hs)
  | sICheck =>
    by_cases hm : trimI s.cfg s.raw = s.cfg.idlePrompt
    · exact of_next_eq ((exec_sICheck_match hm).symm.trans h) (hP.frame hs rfl rfl rfl rfl)
    · exact of_next_eq ((exec_sICheck_differ hm).symm.trans h) (hP.frame hs rfl rfl rfl rfl)
  | sXDesel1 | sXDesel2 => exact of_next_eq h (hP.goto _ (hP.desel hs))
  | sXSel1 => exact of_next_eq h (hP.goto _ (hP.sel hs))
  | sXTx => exact of_next_eq h (hP.frame (hP.xchg (packAt s.txbuf s.txi) hs) rfl rfl rfl rfl)
  | sXSel2 => exact of_next_eq h (hP.goto _ (hP.clearTocnt (hP.sel hs)))
  | sXDesel3 => exact of_next_eq h (hP.goto _ (hP.clearTocnt (hP.desel hs)))
  | sXWait1 | sXWait2 => exact of_next_eq h (hP.waitTurn _ _ hs)
  | phaseReserved19 | phaseReserved20 | phaseReserved24 | primReserved => cases h
  | rsta => exact of_next_eq h (hP.rsta hs)
  | rstr => exact of_next_eq h (hP.rstr hs)
  | sel => exact of_next_eq h (hP.sel hs)
  | desel => exact of_next_eq h (hP.desel hs)
  | sample => exact of_next_eq h (hP.frame (hP.sample hs) rfl rfl rfl rfl)
  | xchg u => exact of_next_eq h (hP.frame (hP.xchg u hs) rfl rfl rfl rfl)
  | rd => exact of_next_eq h (hP.frame (hP.rd hs) rfl rfl rfl rfl)
  | hardReset => exact of_next_eq h (hP.rstr (hP.rsta hs))
  | toggle => exact of_next_eq h (hP.sel (hP.desel hs))
  | waitrdy =>
    rcases execWaitrdy_cases s with ⟨-, hw⟩ | ⟨-, -, hw⟩ | ⟨-, -, hw⟩
    · exact of_next_eq (hw.symm.trans h) (hP.frame (hP.sample hs) rfl rfl rfl rfl)
    · exact of_next_eq (hw.symm.trans h) (hP.frame (hP.sample hs) rfl rfl rfl rfl)
    · exact of_next_eq (hw.symm.trans h)
        (hP.frame (hP.sample hs) (by simp) (by simp) (by simp) (by simp))
  | fInit | fTimeout | fOverflow => exact of_next_eq h (hP.raiseAlone _ hs)
  | _ => exact of_next_eq h (hP.frame hs rfl rfl rfl rfl)

/-- So does every step, whatever is presented. -/
theorem of_step {s t : State} (h : step s = .next t) (hs : P s) : P t := by
  rcases step_inv_any h with ⟨rest, rfl⟩ | ⟨i, rest, he⟩
  · exact hP.reset (hP.frame hs rfl rfl rfl rfl)
  · exact hP.exec he (hP.frame hs rfl rfl rfl rfl)

end KeptByActions

/-! ### The two properties that need it -/

theorem keptByActions_cfg (p : Params) : KeptByActions fun s => s.cfg = p where
  frame hs _ _ _ hcfg := hcfg.trans hs
  rsta hs := hs
  rstr hs := hs
  sel hs := hs
  desel hs := hs
  sample hs := hs
  xchg _ hs := hs
  rd hs := hs
  reset hs := hs

/-- An action drives the lines the module knows as it drives the lines (rules R39, R40, R53). -/
theorem keptByActions_traceShowsLines : KeptByActions TraceShowsLines where
  frame hs hcs hrst htr _ := by rw [TraceShowsLines, htr, hcs, hrst, hs]
  rsta hs := by rw [TraceShowsLines, rstAssert_trace, lineLevels_append_one, hs]; rfl
  rstr hs := by rw [TraceShowsLines, rstRelease_trace, lineLevels_append_one, hs]; rfl
  sel hs := by rw [TraceShowsLines, selectLine_trace, lineLevels_append_one, hs]; rfl
  desel hs := by rw [TraceShowsLines, deselectLine_trace, lineLevels_append_one, hs]; rfl
  sample hs := by rw [TraceShowsLines, sampleLine_trace, lineLevels_append_one, hs]; rfl
  xchg u hs := by rw [TraceShowsLines, exchange_trace, lineLevels_append_one, hs]; rfl
  rd hs := by rw [TraceShowsLines, readUnit_trace, lineLevels_append_one, hs]; rfl
  reset {s} hs := lineLevels_append_resetFalls s hs

/-- Settles O54: the parameters survive every action. -/
theorem parametersAreConstant : Obligations.ParametersAreConstant := fun s _ h =>
  (keptByActions_cfg s.cfg).of_step h rfl

end Sys2Proof.Machine
end

section
/-! The invariant of the block, in four parts with the phase as an argument: the levels the phase
implies, the frame, what is received, the count. Each part is kept by the block's own step, by an
answered offer and by block reset. -/

namespace Sys2Proof.Machine

/-! ### The parts -/

/-- The flags and lines at the levels the phase implies (rules R42 to R44, R173, 93 V3). -/
structure LevelsAt (p : Phase) (s : State) : Prop where
  named : ∀ k, p ≠ .reserved k
  err : s.err = decide (p = .fault)
  errcode : s.errcode = 0 ↔ s.err = false
  initOk : ∀ b, p.initOkAt = some b → s.initOk = b
  done : ∀ b, p.doneAt = some b → s.done = b
  cs : ∀ b, p.csAt = some b → s.cs = b
  rst : s.rst = decide (p = .iRstr)

/-- The command and its frame, and how much of it is sent (rules R33, R34, R104). -/
structure FrameAt (p : Phase) (s : State) : Prop where
  framed : (p.beforeTx || p == .xTx || p.afterTx) = true → s.txbuf = pad s.cmd
  txiStart : p.beforeTx = true → s.txi = 0
  txiIn : p = .xTx → s.txi < s.txbuf.length / 2
  txiEnd : p.afterTx = true → s.txi = s.txbuf.length / 2
  txiLe : s.txi ≤ s.txbuf.length / 2
  txbufEven : s.txbuf.length % 2 = 0
  cmdMax : ∀ n, s.cfg.nCmdMax = some n → s.cmd.length ≤ n
  txbufMax : ∀ n, s.cfg.nCmdMax = some n → s.txbuf.length ≤ n + 2

/-- What is received (rules R35, R104, R161). -/
structure ReceivedAt (p : Phase) (s : State) : Prop where
  rawEven : s.raw.length % 2 = 0
  rawStart : p.beforeRx = true → s.raw = []
  rawMax : ∀ n, s.cfg.nRawMax = some n → s.raw.length ≤ n

/-- The count of a wait is below its bound (rules R47, R104). -/
def CountBelow (s : State) : Prop := ∀ n, s.cfg.timeoutPolls = some n → s.tocnt < n

theorem blockInv_iff (s : State) :
    BlockInv s ↔ LevelsAt s.phase s ∧ FrameAt s.phase s ∧ ReceivedAt s.phase s ∧ CountBelow s ∧
      ∀ e ∈ s.inbox, e.hostLegal = true := by
  constructor
  · intro h
    exact ⟨⟨h.named, by rw [Bool.eq_iff_iff, h.errIff, decide_eq_true_iff], h.errcodeIff,
        h.initOkAt, h.doneAt, h.csAt, by rw [Bool.eq_iff_iff, h.rstIff, decide_eq_true_iff]⟩,
      ⟨h.framed, h.txiStart, h.txiIn, h.txiEnd, h.txiLe, h.txbufEven, h.cmdMax, h.txbufMax⟩,
      ⟨h.rawEven, h.rawStart, h.rawMax⟩, h.tocntMax, h.legal⟩
  · rintro ⟨hl, hf, hr, hc, hlegal⟩
    exact ⟨hl.named, by rw [hl.err, decide_eq_true_iff], hl.errcode, hl.initOk, hl.done, hl.cs,
      by rw [hl.rst, decide_eq_true_iff], hf.framed, hf.txiStart, hf.txiIn, hf.txiEnd, hf.txiLe,
      hf.txbufEven, hr.rawEven, hr.rawStart, hf.cmdMax, hf.txbufMax, hr.rawMax, hc, hlegal⟩

/-! ### The levels -/

theorem FaultKind.code_ne_zero (f : FaultKind) : f.code ≠ 0 := by
  cases f <;> decide

/-- Fault entry while an operation is under way, outside the reset pulse (rule R198). -/
theorem LevelsAt.faultEntry {p : Phase} {s u : State} (h : LevelsAt p s) (hdone : u.done = s.done)
    (hrst : u.rst = s.rst) (f : FaultKind) (info : Phase) (hd : p.doneAt = some false)
    (hr : p ≠ .iRstr) : LevelsAt .fault (faultEntry f info u) where
  named := nofun
  err := rfl
  errcode := iff_of_false f.code_ne_zero Bool.noConfusion
  initOk := nofun
  done := fun _ hb => (hdone.trans (h.done false hd)).trans (Option.some.inj hb)
  cs := nofun
  rst := (hrst.trans h.rst).trans (decide_eq_false hr)

/-- One line for each kind of arc: which levels it writes, and which it hands on. -/
theorem LevelsAt.blockStep {s t : State} (h : LevelsAt s.phase s) (hs : BlockStep s t) :
    LevelsAt t.phase t := by
  cases hs
  case rest => exact h
  case assertReset hp | releaseReset hp =>
    rw [hp] at h
    exact ⟨nofun, h.err, h.errcode, h.initOk, h.done, nofun, rfl⟩
  case initSelect hp | deselect1 hp | select1 hp | deselect2 hp =>
    rw [hp] at h
    exact ⟨nofun, h.err, h.errcode, h.initOk, h.done, fun _ => Option.some.inj, h.rst⟩
  case checkMatch hp _ =>
    rw [hp] at h
    exact ⟨nofun, h.err, h.errcode, fun _ => Option.some.inj, fun _ => Option.some.inj, nofun,
      h.rst⟩
  case checkDiffer hp _ =>
    exact h.faultEntry (by rfl) (by rfl) _ _ (by rw [hp]; rfl) (by rw [hp]; nofun)
  case pad hp =>
    rw [hp] at h
    exact ⟨nofun, h.err, h.errcode, h.initOk, h.done, nofun, h.rst⟩
  case sendLast hp _ | sendMore hp _ =>
    rw [hp] at h
    exact ⟨nofun, h.err, h.errcode, h.initOk, h.done, h.cs, h.rst⟩
  case select2 hp =>
    rw [hp] at h
    obtain ⟨n, hn⟩ := clearTocnt_eq (selectLine s)
    rw [hn]
    exact ⟨nofun, h.err, h.errcode, h.initOk, h.done, fun _ => Option.some.inj, h.rst⟩
  case deselect3 hp =>
    rw [hp] at h
    obtain ⟨n, hn⟩ := clearTocnt_eq (deselectLine s)
    rw [hn]
    exact ⟨nofun, h.err, h.errcode, h.initOk, h.done, fun _ => Option.some.inj, h.rst⟩
  case clean hp =>
    rw [hp] at h
    exact ⟨nofun, h.err, h.errcode, h.initOk, fun _ => Option.some.inj, nofun, h.rst⟩
  case receiveEnd ha _ | waitGo ha _ =>
    rcases ha with ⟨hp, rfl⟩ | ⟨hp, rfl⟩ <;> rw [hp] at h <;>
      exact ⟨nofun, h.err, h.errcode, h.initOk, h.done, h.cs, h.rst⟩
  case receiveOver ha _ _ _ | waitTimeout ha _ _ =>
    rcases ha with ⟨hp, -⟩ | ⟨hp, -⟩ <;>
      exact h.faultEntry (by rfl) (by rfl) _ _ (by rw [hp]; rfl) (by rw [hp]; nofun)
  case receiveIdle | receiveKeep =>
    exact ⟨h.named, h.err, h.errcode, h.initOk, h.done, h.cs, h.rst⟩
  case waitAgain =>
    obtain ⟨n, hn⟩ := countZero_eq (sampleLine s)
    rw [hn]
    exact ⟨h.named, h.err, h.errcode, h.initOk, h.done, h.cs, h.rst⟩

theorem LevelsAt.offerStep {s t : State} (h : LevelsAt s.phase s) (hs : OfferStep s t) :
    LevelsAt t.phase t := by
  cases hs
  case refused => exact ⟨h.named, h.err, h.errcode, h.initOk, h.done, h.cs, h.rst⟩
  case init hp =>
    rcases hp with hp | hp <;> rw [hp] at h <;>
      exact ⟨nofun, h.err, h.errcode, fun _ => Option.some.inj, fun _ => Option.some.inj, nofun,
        h.rst⟩
  case exec c hp _ =>
    rw [hp] at h
    exact ⟨nofun, h.err, h.errcode, h.initOk, fun _ => Option.some.inj, nofun, h.rst⟩

theorem LevelsAt.blockReset (s : State) : LevelsAt .uninit (blockReset s) :=
  ⟨nofun, rfl, iff_of_true rfl rfl, fun _ => Option.some.inj, fun _ => Option.some.inj,
    fun _ => Option.some.inj, rfl⟩

/-! ### The frame -/

/-- The data stays, and the phase goes to one that claims no more of it. -/
theorem FrameAt.of_eq {p q : Phase} {s t : State} (h : FrameAt p s) (hcmd : t.cmd = s.cmd)
    (hbuf : t.txbuf = s.txbuf) (htxi : t.txi = s.txi) (hcfg : t.cfg = s.cfg)
    (hb : q.beforeTx = true → p.beforeTx = true) (hx : q = .xTx → p = .xTx)
    (ha : q.afterTx = true → p.afterTx = true) : FrameAt q t where
  framed hq := by
    rw [hbuf, hcmd]
    refine h.framed ?_
    simp only [Bool.or_eq_true, beq_iff_eq] at hq ⊢
    exact hq.imp (Or.imp hb hx) ha
  txiStart hq := by rw [htxi]; exact h.txiStart (hb hq)
  txiIn hq := by rw [htxi, hbuf]; exact h.txiIn (hx hq)
  txiEnd hq := by rw [htxi, hbuf]; exact h.txiEnd (ha hq)
  txiLe := by rw [htxi, hbuf]; exact h.txiLe
  txbufEven := by rw [hbuf]; exact h.txbufEven
  cmdMax := by rw [hcfg, hcmd]; exact h.cmdMax
  txbufMax := by rw [hcfg, hbuf]; exact h.txbufMax

/-- The frame of a command that fits fits (rule R82). -/
theorem pad_length_le (c : Bytes) (n : Nat) (h : c.length ≤ n) : (pad c).length ≤ n + 2 := by
  rw [pad_length]; omega

/-- The arcs that write the frame, the first exchange's and the last's; every other hands it on. -/
theorem FrameAt.blockStep {s t : State} (h : FrameAt s.phase s) (hs : BlockStep s t) :
    FrameAt t.phase t := by
  cases hs
  case rest => exact h
  case pad hp =>
    have heven : (pad s.cmd).length % 2 = 0 := by rw [pad_length]; omega
    exact ⟨fun _ => rfl, fun _ => rfl, nofun, nofun, Nat.zero_le _, heven, h.cmdMax,
      fun n hn => pad_length_le s.cmd n (h.cmdMax n hn)⟩
  case select1 hp =>
    rw [hp] at h
    have hbuf : s.txbuf = pad s.cmd := h.framed rfl
    have hin : s.txi < s.txbuf.length / 2 := by
      have := two_le_pad_length s.cmd
      rw [h.txiStart rfl, hbuf]; omega
    exact ⟨fun _ => hbuf, nofun, fun _ => hin, nofun, h.txiLe, h.txbufEven, h.cmdMax, h.txbufMax⟩
  case sendLast hp hl =>
    rw [hp] at h
    exact ⟨fun _ => h.framed rfl, nofun, nofun, fun _ => hl, hl.le, h.txbufEven, h.cmdMax,
      h.txbufMax⟩
  case sendMore hp hl =>
    rw [hp] at h
    have hin : s.txi + 1 < s.txbuf.length / 2 := lt_of_le_of_ne (h.txiIn rfl) hl
    exact ⟨fun _ => h.framed rfl, nofun, fun _ => hin, nofun, hin.le, h.txbufEven, h.cmdMax,
      h.txbufMax⟩
  case receiveEnd ha _ | waitGo ha _ =>
    rcases ha with ⟨hp, rfl⟩ | ⟨hp, rfl⟩ <;> rw [hp] at h <;> rw [goto_phase] <;>
      exact h.of_eq rfl rfl rfl rfl (by decide) (by decide) (by decide)
  case receiveIdle | receiveKeep => exact h.of_eq rfl rfl rfl rfl id id id
  case waitAgain => exact h.of_eq (by simp) (by simp) (by simp) (by simp) id id id
  case receiveOver | waitTimeout | checkDiffer => exact h.of_eq rfl rfl rfl rfl nofun nofun nofun
  all_goals
    rw [‹s.phase = _›] at h
    rw [goto_phase]
    exact h.of_eq (by simp) (by simp) (by simp) (by simp) (by decide) (by decide) (by decide)

theorem FrameAt.offerStep {s t : State} (h : FrameAt s.phase s) (hs : OfferStep s t) :
    FrameAt t.phase t := by
  cases hs
  case refused => exact h.of_eq rfl rfl rfl rfl id id id
  case init => exact h.of_eq rfl rfl rfl rfl nofun nofun nofun
  case exec c _ hc =>
    exact ⟨nofun, nofun, nofun, nofun, h.txiLe, h.txbufEven, (overCmdMax_eq_false_iff _ _).1 hc,
      h.txbufMax⟩

theorem FrameAt.blockReset (s : State) : FrameAt .uninit (blockReset s) :=
  ⟨nofun, nofun, nofun, nofun, Nat.zero_le _, rfl, fun _ _ => Nat.zero_le _,
    fun _ _ => Nat.zero_le _⟩

/-! ### What is received -/

theorem ReceivedAt.of_eq {p q : Phase} {s t : State} (h : ReceivedAt p s) (hraw : t.raw = s.raw)
    (hcfg : t.cfg = s.cfg) (hb : q.beforeRx = true → p.beforeRx = true) : ReceivedAt q t where
  rawEven := by rw [hraw]; exact h.rawEven
  rawStart hq := by rw [hraw]; exact h.rawStart (hb hq)
  rawMax := by rw [hraw, hcfg]; exact h.rawMax

/-- An empty accumulator meets every claim. -/
theorem ReceivedAt.of_nil {p : Phase} {s : State} (h : s.raw = []) : ReceivedAt p s where
  rawEven := by rw [h]; rfl
  rawStart _ := h
  rawMax _ _ := by rw [h]; exact Nat.zero_le _

/-- The accumulator is emptied, or grows by a kept unit that fits; every other arc hands it on. -/
theorem ReceivedAt.blockStep {s t : State} (h : ReceivedAt s.phase s) (hs : BlockStep s t) :
    ReceivedAt t.phase t := by
  cases hs
  case rest => exact h
  case initSelect | pad => exact .of_nil rfl
  case receiveKeep ha _ _ ho =>
    have heven := h.rawEven
    refine ⟨by simp; omega, fun hq => ?_, fun n hn => ?_⟩
    · rcases ha with ⟨hp, -⟩ | ⟨hp, -⟩ <;> simp [hp, Phase.beforeRx] at hq
    · simpa using (overRawMax_eq_false_iff _ _).1 ho n hn
  case receiveEnd ha _ | waitGo ha _ =>
    rcases ha with ⟨hp, rfl⟩ | ⟨hp, rfl⟩ <;> rw [hp] at h <;> rw [goto_phase] <;>
      exact h.of_eq rfl rfl (by decide)
  case receiveIdle => exact h.of_eq rfl rfl id
  case waitAgain => exact h.of_eq (by simp) (by simp) id
  case receiveOver | waitTimeout | checkDiffer => exact h.of_eq rfl rfl nofun
  all_goals
    rw [‹s.phase = _›] at h
    rw [goto_phase]
    exact h.of_eq (by simp) (by simp) (by decide)

theorem ReceivedAt.offerStep {s t : State} (h : ReceivedAt s.phase s) (hs : OfferStep s t) :
    ReceivedAt t.phase t := by
  cases hs
  case refused => exact h.of_eq rfl rfl id
  case init | exec => exact h.of_eq rfl rfl nofun

/-! ### The count of a wait -/

theorem CountBelow.of_eq {s t : State} (h : CountBelow s) (hcnt : t.tocnt = s.tocnt)
    (hcfg : t.cfg = s.cfg) : CountBelow t := by
  rw [CountBelow, hcnt, hcfg]; exact h

/-- A bound is positive (rule R14). -/
theorem timeoutPolls_pos {p : Params} {n : Nat} (h : p.timeoutPolls = some n) : 0 < n := by
  obtain ⟨m, -, rfl⟩ := Option.map_eq_some_iff.1 h
  exact Nat.succ_pos m

theorem countBelow_clearTocnt (s : State) : CountBelow (clearTocnt s) := by
  intro n hn
  rw [clearTocnt_cfg] at hn
  rw [clearTocnt_present s n hn]
  exact timeoutPolls_pos hn

theorem CountBelow.countZero {s : State} (h : CountBelow s)
    (ht : s.cfg.timeoutPolls ≠ some (s.tocnt + 1)) : CountBelow (countZero s) := by
  intro n hn
  rw [countZero_cfg] at hn
  rw [countZero_present s n hn]
  have hne : s.tocnt + 1 ≠ n := fun heq => ht (heq ▸ hn)
  exact lt_of_le_of_ne (h n hn) hne

/-- The count is cleared, or incremented short of the bound; every other arc hands it on. -/
theorem CountBelow.blockStep {s t : State} (h : CountBelow s) (hs : BlockStep s t) :
    CountBelow t := by
  cases hs
  case rest => exact h
  case select2 => exact (countBelow_clearTocnt (selectLine s)).of_eq rfl rfl
  case deselect3 => exact (countBelow_clearTocnt (deselectLine s)).of_eq rfl rfl
  case waitAgain ht =>
    exact (CountBelow.countZero (s := sampleLine s) (h.of_eq rfl rfl) ht).of_eq rfl rfl
  all_goals exact h.of_eq rfl rfl

/-! ### The invariant -/

/-- The invariant speaks of the pending events only to say that they are the host's. -/
theorem BlockInv.takeEvent {s : State} (h : BlockInv s) : BlockInv (takeEvent s) :=
  { h with legal := fun e he => h.legal e (List.mem_of_mem_tail he) }

theorem BlockInv.blockStep {s t : State} (h : BlockInv s) (hs : BlockStep s t) : BlockInv t := by
  obtain ⟨hl, hf, hr, hc, hlegal⟩ := (blockInv_iff s).1 h
  exact (blockInv_iff t).2 ⟨hl.blockStep hs, hf.blockStep hs, hr.blockStep hs, hc.blockStep hs,
    hs.inbox_eq ▸ hlegal⟩

theorem BlockInv.offerStep {s t : State} (h : BlockInv s) (hs : OfferStep s t) : BlockInv t := by
  obtain ⟨hl, hf, hr, hc, hlegal⟩ := (blockInv_iff s).1 h
  have hrest : t.inbox = s.inbox ∧ t.tocnt = s.tocnt ∧ t.cfg = s.cfg := by
    cases hs <;> exact ⟨rfl, rfl, rfl⟩
  obtain ⟨hinbox, hcnt, hcfg⟩ := hrest
  exact (blockInv_iff t).2 ⟨hl.offerStep hs, hf.offerStep hs, hr.offerStep hs, hc.of_eq hcnt hcfg,
    hinbox ▸ hlegal⟩

/-- Block reset meets the invariant from any state, as long as the host is legal. -/
theorem blockInv_blockReset (s : State) (hlegal : ∀ e ∈ s.inbox, e.hostLegal = true) :
    BlockInv (blockReset s) :=
  (blockInv_iff _).2 ⟨.blockReset s, .blockReset s, .of_nil rfl, fun _ hn => timeoutPolls_pos hn,
    hlegal⟩

theorem BlockInv.step {s t : State} (h : BlockInv s) (hs : step s = .next t) : BlockInv t := by
  rcases step_inv h.legal hs with ⟨-, rfl⟩ | hoffer | hstep
  · exact blockInv_blockReset _ h.takeEvent.legal
  · exact h.takeEvent.offerStep hoffer
  · exact h.takeEvent.blockStep hstep

/-! ### Transfers -/

/-- The arcs that transfer a unit start in the drain, the transmission or the receive loop
(rule R172). -/
theorem stepArcs_transfer : ∀ a ∈ stepArcs, ActKind.xchg ∈ a.2.2 ∨ ActKind.rd ∈ a.2.2 →
    a.1 = .iDrain ∨ a.1 = .xTx ∨ a.1 = .xRx := by
  decide

/-- A step that transfers a unit is one of the three transferring phases' own. -/
theorem BlockStep.transfer_phase {s t : State} {acts : List TraceItem} (h : BlockStep s t)
    (htr : t.trace = s.trace ++ acts)
    (hx : .xchg ∈ acts.map TraceItem.kind ∨ .rd ∈ acts.map TraceItem.kind) :
    s.phase = .iDrain ∨ s.phase = .xTx ∨ s.phase = .xRx := by
  cases hr : s.phase.resting with
  | true =>
    cases h
    case rest =>
      have hnil : acts = [] := List.append_right_eq_self.1 htr.symm
      simp [hnil] at hx
    case receiveEnd ha _ | receiveIdle ha _ _ | receiveOver ha _ _ _ | receiveKeep ha _ _ _ =>
      exact ha.elim (fun h => .inl h.1) fun h => .inr (.inr h.1)
    case waitGo ha _ | waitTimeout ha _ _ | waitAgain ha _ _ =>
      rcases ha with ⟨hp, -⟩ | ⟨hp, -⟩ <;> simp [hp, Phase.resting] at hr
    all_goals simp [‹s.phase = _›, Phase.resting] at hr
  | false =>
    obtain ⟨acts', htr', harc⟩ := h.arc hr
    obtain rfl : acts' = acts := List.append_cancel_left (htr'.symm.trans htr)
    exact stepArcs_transfer _ harc hx

/-! ### The obligations -/

/-- Settles O45: the reset state is a block reset's, with nothing pending and no trace. -/
theorem resetMeetsTheInvariant : Obligations.ResetMeetsTheInvariant :=
  ⟨blockInv_blockReset State.reset nofun, rfl⟩

/-- Settles O46: the invariant in its four parts, the trace by what every action keeps. -/
theorem stepKeepsTheInvariant : Obligations.StepKeepsTheInvariant :=
  ⟨fun _ _ h hs => h.step hs, fun _ _ h hs => keptByActions_traceShowsLines.of_step hs h⟩

/-- Settles O49: the transferring phases are selected and outside the reset pulse, and write no
line. -/
theorem transfersOnlyWhileSelected : Obligations.TransfersOnlyWhileSelected := by
  intro s t acts hinv hs htr hx
  rcases step_inv hinv.legal hs with ⟨-, rfl⟩ | hoffer | hstep
  · obtain rfl : resetFalls s = acts := List.append_cancel_left htr
    unfold resetFalls at hx
    split at hx <;> simp [TraceItem.kind] at hx
  · have hnil : acts = [] := by
      cases hoffer <;> exact List.append_right_eq_self.1 htr.symm
    simp [hnil] at hx
  · have hp : s.phase = .iDrain ∨ s.phase = .xTx ∨ s.phase = .xRx := hstep.transfer_phase htr hx
    have hcs : s.cs = true := by
      rcases hp with hp | hp | hp <;> exact hinv.csAt true (by rw [hp]; rfl)
    have hrst : s.rst = false := by
      rw [← Bool.not_eq_true, hinv.rstIff]; rcases hp with hp | hp | hp <;> simp [hp]
    have hcs' : t.cs = s.cs :=
      hstep.cs_eq (by rcases hp with hp | hp | hp <;> simp [takeEvent, hp])
    have hrst' : t.rst = s.rst :=
      hstep.rst_eq (by rcases hp with hp | hp | hp <;> simp [takeEvent, hp])
    exact ⟨hcs, hrst, hcs'.trans hcs, hrst'.trans hrst⟩

/-- Settles O50: the two arcs into S_IDLE write no line. -/
theorem chipSelectAtRest : Obligations.ChipSelectAtRest := by
  intro s t hinv hs hne ht
  have hrst : t.rst = false := by
    rw [← Bool.not_eq_true, (hinv.step hs).rstIff, ht]; nofun
  have hinit : t.initOk = true := (hinv.step hs).initOkAt true (by rw [ht]; rfl)
  rcases step_inv hinv.legal hs with ⟨-, rfl⟩ | hoffer | hstep
  · cases ht
  · cases hoffer
    case refused => exact absurd ht hne
    case init | exec => cases ht
  · rcases hstep.of_reaches_idle hne ht with ⟨hp, rfl⟩ | ⟨hp, rfl⟩
    · exact .inl ⟨hp, hinv.csAt true (by rw [show s.phase = .iCheck from hp]; rfl), hrst, rfl⟩
    · exact .inr ⟨hp, hinv.csAt false (by rw [show s.phase = .xClean from hp]; rfl), hrst, hinit⟩

end Sys2Proof.Machine
end

section
/-! Noninterference: the units the exchanges still to come return reach no state (rules R49, R164,
R229). Every row but S_X_TX commutes with replacing them; S_X_TX drops one of them. -/

namespace Sys2Proof.Machine

/-! ### Replacing the units still to come -/

/-- The state with other units to be returned by its exchanges. -/
def withTxrx (us : List XUnit) (s : State) : State := { s with env := { s.env with txrx := us } }

@[simp] theorem withTxrx_cfg (us : List XUnit) (s : State) : (withTxrx us s).cfg = s.cfg := rfl

@[simp] theorem withTxrx_raw (us : List XUnit) (s : State) : (withTxrx us s).raw = s.raw := rfl

theorem sameButTxrx_iff (s s' : State) :
    SameButTxrx s s' ↔ ∃ us, us.length = s.env.txrx.length ∧ s' = withTxrx us s := by
  constructor
  · rintro ⟨h, hlen⟩
    exact ⟨_, hlen, h⟩
  · rintro ⟨us, hlen, rfl⟩
    exact ⟨rfl, hlen⟩

/-- An update that neither reads nor takes a unit an exchange returns. -/
def TxrxBlind (f : State → State) : Prop := ∀ us s, f (withTxrx us s) = withTxrx us (f s)

/-- Such an update leaves the units as they were. -/
theorem TxrxBlind.txrx_eq {f : State → State} (h : TxrxBlind f) (s : State) :
    (f s).env.txrx = s.env.txrx :=
  (congrArg (fun u : State => u.env.txrx) (h s.env.txrx s) :)

theorem TxrxBlind.sameButTxrx {f : State → State} (h : TxrxBlind f) {s s' : State}
    (hs : SameButTxrx s s') : SameButTxrx (f s) (f s') := by
  obtain ⟨us, hlen, rfl⟩ := (sameButTxrx_iff s s').1 hs
  exact (sameButTxrx_iff _ _).2 ⟨us, hlen.trans (congrArg _ (h.txrx_eq s).symm), h us s⟩

/-! ### The shared operations -/

theorem dropBit_txrx_set (e : Env) (us : List XUnit) :
    dropBit { e with txrx := us } = { dropBit e with txrx := us } := by
  unfold dropBit; cases e.d <;> rfl

theorem dropRx_txrx_set (e : Env) (us : List XUnit) :
    dropRx { e with txrx := us } = { dropRx e with txrx := us } := by
  unfold dropRx; cases e.rx <;> rfl

theorem txrxBlind_sampleLine : TxrxBlind sampleLine := fun us s =>
  congrArg (fun e => emit (.sample (nextBit s)) { s with env := e }) (dropBit_txrx_set s.env us)

theorem txrxBlind_readUnit : TxrxBlind readUnit := fun us s =>
  congrArg (fun e => emit (.rd s.cfg.padByte) { s with env := e }) (dropRx_txrx_set s.env us)

theorem txrxBlind_clearTocnt : TxrxBlind clearTocnt := by
  intro us s
  cases h : s.cfg.timeoutPolls with
  | none => rw [clearTocnt_absent s h, clearTocnt_absent (withTxrx us s) h]
  | some n => rw [clearTocnt_present s n h, clearTocnt_present (withTxrx us s) n h]; rfl

theorem txrxBlind_countZero : TxrxBlind countZero := by
  intro us s
  cases h : s.cfg.timeoutPolls with
  | none => rw [countZero_absent s h, countZero_absent (withTxrx us s) h]
  | some n => rw [countZero_present s n h, countZero_present (withTxrx us s) n h]; rfl

theorem txrxBlind_waitTurn (self after : Phase) : TxrxBlind (waitTurn self after) := by
  intro us s
  have hb : nextBit (withTxrx us s) = nextBit s := rfl
  have ht : timeoutNow (withTxrx us s) = timeoutNow s := rfl
  simp only [waitTurn, hb, ht, txrxBlind_sampleLine us s, txrxBlind_countZero us (sampleLine s)]
  split
  · rfl
  · split <;> rfl

theorem txrxBlind_receiveUnit (self : Phase) : TxrxBlind (receiveUnit self) := by
  intro us s
  have hu : nextRx (withTxrx us s) = nextRx s := rfl
  simp only [receiveUnit, hu, withTxrx_cfg, withTxrx_raw, txrxBlind_readUnit us s]
  split <;> rfl

theorem txrxBlind_receiveTurn (self after : Phase) : TxrxBlind (receiveTurn self after) := by
  intro us s
  have hb : nextBit (withTxrx us s) = nextBit s := rfl
  simp only [receiveTurn, hb, txrxBlind_sampleLine us s,
    txrxBlind_receiveUnit self us (sampleLine s)]
  split <;> rfl

/-! ### The rows of the phases -/

/-- A row that performs one update of the state that is blind. -/
def BlindRow (i : Instr) : Prop := ∃ f, TxrxBlind f ∧ ∀ s, exec i s = .next (f s)

theorem blindRow_init : BlindRow .init :=
  ⟨_, fun us s => by
    have hr : refusalOf none (withTxrx us s) = refusalOf none s := rfl
    simp only [hr]
    cases refusalOf none s <;> rfl, fun _ => rfl⟩

theorem blindRow_exec (c : Bytes) : BlindRow (.exec c) :=
  ⟨_, fun us s => by
    have hr : refusalOf (some c) (withTxrx us s) = refusalOf (some c) s := rfl
    simp only [hr]
    cases refusalOf (some c) s <;> rfl, fun _ => rfl⟩

theorem blindRow_sICheck : BlindRow .sICheck :=
  ⟨_, fun us s => by
    have hm : checkMatch (withTxrx us s).cfg (withTxrx us s).raw = checkMatch s.cfg s.raw := rfl
    simp only [hm]
    split <;> rfl, fun _ => rfl⟩

/-- Every named phase but S_X_TX performs such a row. -/
theorem blindRow_phaseRow {p : Phase} (hx : p ≠ .xTx) (hn : ∀ k, p ≠ .reserved k) :
    BlindRow (phaseRow p) := by
  cases p with
  | iDrain | xRx => exact ⟨_, txrxBlind_receiveTurn _ _, fun _ => rfl⟩
  | xWait1 | xWait2 => exact ⟨_, txrxBlind_waitTurn _ _, fun _ => rfl⟩
  | iCheck => exact blindRow_sICheck
  | xSel2 =>
    exact ⟨fun s => goto .xWait1 (clearTocnt (selectLine s)),
      fun us s => congrArg (goto .xWait1) (txrxBlind_clearTocnt us (selectLine s)), fun _ => rfl⟩
  | xDesel3 =>
    exact ⟨fun s => goto .xWait2 (clearTocnt (deselectLine s)),
      fun us s => congrArg (goto .xWait2) (txrxBlind_clearTocnt us (deselectLine s)), fun _ => rfl⟩
  | xTx => exact absurd rfl hx
  | reserved k => exact absurd rfl (hn k)
  | _ => exact ⟨_, fun _ _ => rfl, fun _ => rfl⟩

theorem BlindRow.sameButTxrx {i : Instr} (h : BlindRow i) {s s' t : State}
    (hs : SameButTxrx s s') (ht : exec i s = .next t) :
    ∃ t', exec i s' = .next t' ∧ SameButTxrx t t' := by
  obtain ⟨f, hf, hi⟩ := h
  obtain rfl : f s = t := Host.Outcome.next.inj ((hi s).symm.trans ht)
  exact ⟨f s', hi s', hf.sameButTxrx hs⟩

/-- An exchange takes one unit of either list, or one free draw of either state (assumption 2). -/
theorem dropTxrx_txrx_set (e : Env) (us : List XUnit) (h : us.length = e.txrx.length) :
    dropTxrx { e with txrx := us } = { dropTxrx e with txrx := us.tail } := by
  unfold dropTxrx
  cases he : e.txrx <;> cases us <;> simp_all

theorem sameButTxrx_sXTx {s s' t : State} (hs : SameButTxrx s s')
    (ht : exec .sXTx s = .next t) : ∃ t', exec .sXTx s' = .next t' ∧ SameButTxrx t t' := by
  obtain ⟨us, hlen, rfl⟩ := (sameButTxrx_iff s s').1 hs
  obtain rfl := Host.Outcome.next.inj ((exec_sXTx s).symm.trans ht)
  refine ⟨_, exec_sXTx _, (sameButTxrx_iff _ _).2 ⟨us.tail, ?_, ?_⟩⟩
  · simp [hlen]
  · have henv : dropTxrx (withTxrx us s).env = { dropTxrx s.env with txrx := us.tail } :=
      dropTxrx_txrx_set s.env us hlen
    simp only [exchange, henv]
    rfl

theorem sameButTxrx_phaseRow {p : Phase} {s s' t : State} (hs : SameButTxrx s s')
    (ht : exec (phaseRow p) s = .next t) :
    ∃ t', exec (phaseRow p) s' = .next t' ∧ SameButTxrx t t' := by
  by_cases hx : p = .xTx
  · subst hx
    exact sameButTxrx_sXTx hs ht
  · have hn : ∀ k, p ≠ .reserved k := fun k hk => exec_reserved_ne_next k s t (hk ▸ ht)
    exact (blindRow_phaseRow hx hn).sameButTxrx hs ht

/-! ### The obligation -/

/-- Settles O55: the two states take the same event, and the row performed preserves the
relation. -/
theorem unitsReturnedDuringTransmissionReachNothing :
    Obligations.UnitsReturnedDuringTransmissionReachNothing := by
  intro s s' t hs hl h
  have hinbox : s'.inbox = s.inbox := (congrArg State.inbox hs.1 :)
  have hphase : s'.phase = s.phase := (congrArg State.phase hs.1 :)
  have htake : ∀ rest, SameButTxrx { s with inbox := rest } { s' with inbox := rest } :=
    fun rest => TxrxBlind.sameButTxrx (f := fun u => { u with inbox := rest }) (fun _ _ => rfl) hs
  cases hi : s.inbox with
  | nil =>
    have hrow : exec (phaseRow s'.phase) s = .next t := by
      rw [hphase, ← step_of_inbox_nil s hi, h]
    rw [step_of_inbox_nil s' (hinbox.trans hi)]
    exact sameButTxrx_phaseRow hs hrow
  | cons e rest =>
    cases e with
    | run =>
      have hrow : exec (phaseRow s'.phase) { s with inbox := rest } = .next t := by
        rw [hphase, ← step_of_inbox_run s rest hi, h]
      rw [step_of_inbox_run s' rest (hinbox.trans hi)]
      exact sameButTxrx_phaseRow (htake rest) hrow
    | blockReset =>
      cases h.symm.trans (step_of_inbox_blockReset s rest hi)
      exact ⟨_, step_of_inbox_blockReset s' rest (hinbox.trans hi),
        TxrxBlind.sameButTxrx (fun _ _ => rfl) (htake rest)⟩
    | word w =>
      have hrow : ∃ i, decode w = .ok i ∧ BlindRow i := by
        rcases hostLegal_word w (hl _ (by simp [hi])) with hd | ⟨c, hd⟩
        · exact ⟨_, hd, blindRow_init⟩
        · exact ⟨_, hd, blindRow_exec c⟩
      obtain ⟨i, hd, hrow⟩ := hrow
      rw [step_of_inbox_word s' w i rest (hinbox.trans hi) hd]
      exact hrow.sameButTxrx (htake rest) ((step_of_inbox_word s w i rest hi hd).symm.trans h)

end Sys2Proof.Machine
end

section
/-! Runs of several steps: the busy-waits and the loops by induction on what is drawn, the two whole
operations as chains of their segments (`43_choreography_fsm.md` rules R151, R152;
`70_reset_and_hazards.md` rules R228, R243). -/

namespace Sys2Proof.Machine

/-! ### Steps with nothing pending -/

theorem step_of_row {s t : State} {p : Phase} (hi : s.inbox = []) (hp : s.phase = p)
    (h : exec (phaseRow p) s = .next t) : step s = .next t := by
  rw [step_of_inbox_nil s hi, hp, h]

theorem reaches_snoc {k : Nat} {s u t : State} (h : Reaches k s u) (hs : step u = .next t) :
    Reaches (k + 1) s t :=
  reaches_trans k 1 s u t h (reaches_one u t hs)

/-- A listed sample is taken from the list and shown in the trace. -/
theorem sampleLine_of_cons {s : State} {b : Bool} {ds : List Bool} (h : s.env.d = b :: ds) :
    sampleLine s =
      { s with env := { s.env with d := ds }, trace := s.trace ++ [.sample b] } := by
  rw [sampleLine, nextBit_of_cons s b ds h, dropBit_of_cons h]; rfl

theorem replicate_append_of_le {α : Type} {j n : Nat} (a : α) (l : List α) (h : j ≤ n) :
    List.replicate n a ++ l = List.replicate j a ++ (List.replicate (n - j) a ++ l) := by
  rw [← List.append_assoc, List.replicate_append_replicate, Nat.add_sub_cancel' h]

/-! ### The count of a wait -/

/-- The holder of `TOCNT` when a phase writes `new` to it: as it was when `TOCNT` is absent
(rule R47, assumption 16). -/
def tocntWrite (p : Params) (old new : Nat) : Nat := if p.timeoutPolls = none then old else new

theorem tocntWrite_absent {p : Params} (h : p.timeoutPolls = none) (a b : Nat) :
    tocntWrite p a b = a := if_pos h

theorem tocntWrite_present {p : Params} {n : Nat} (h : p.timeoutPolls = some n) (a b : Nat) :
    tocntWrite p a b = b := if_neg (by simp [h])

@[simp] theorem tocntWrite_self (p : Params) (a : Nat) : tocntWrite p a a = a := ite_self a

/-- Of two writes the later stands. -/
@[simp] theorem tocntWrite_tocntWrite (p : Params) (a b c : Nat) :
    tocntWrite p (tocntWrite p a b) c = tocntWrite p a c := by
  unfold tocntWrite; split <;> rfl

/-- A write that counts on from the last one. -/
@[simp] theorem tocntWrite_tocntWrite_add (p : Params) (a b k : Nat) :
    tocntWrite p a (tocntWrite p a b + k) = tocntWrite p a (b + k) := by
  unfold tocntWrite; split <;> rfl

theorem clearTocnt_eq_write (s : State) :
    clearTocnt s = { s with tocnt := tocntWrite s.cfg s.tocnt 0 } := by
  cases h : s.cfg.timeoutPolls with
  | none => rw [clearTocnt_absent s h, tocntWrite_absent h]
  | some n => rw [clearTocnt_present s n h, tocntWrite_present h]

theorem countZero_eq_write (s : State) :
    countZero s = { s with tocnt := tocntWrite s.cfg s.tocnt (s.tocnt + 1) } := by
  cases h : s.cfg.timeoutPolls with
  | none => rw [countZero_absent s h, tocntWrite_absent h]
  | some n => rw [countZero_present s n h, tocntWrite_present h]

/-! ### The busy-waits -/

section Wait
variable {s : State} {after : Phase} {ds : List Bool}

theorem step_of_waitArc (hi : s.inbox = []) (ha : WaitArc s.phase after) :
    step s = .next (waitTurn s.phase after s) := by
  rw [step_of_inbox_nil s hi]
  rcases ha with ⟨hp, rfl⟩ | ⟨hp, rfl⟩ <;> rw [hp] <;> rfl

/-- A sample of 0 short of the bound. -/
theorem step_wait_zero (hi : s.inbox = []) (ha : WaitArc s.phase after)
    (hd : s.env.d = false :: ds) (ht : s.cfg.timeoutPolls ≠ some (s.tocnt + 1)) :
    step s = .next { s with
      tocnt := tocntWrite s.cfg s.tocnt (s.tocnt + 1), env := { s.env with d := ds },
      trace := s.trace ++ [.sample false] } := by
  have hb := nextBit_of_cons s false ds hd
  have hto : timeoutNow s = false := Bool.eq_false_iff.2 fun h => ht ((timeoutNow_iff s).1 h)
  rw [step_of_waitArc hi ha, waitTurn, hb, hto, countZero_eq_write, sampleLine_of_cons hd]
  rfl

theorem step_wait_one (hi : s.inbox = []) (ha : WaitArc s.phase after)
    (hd : s.env.d = true :: ds) :
    step s = .next { s with
      phase := after, env := { s.env with d := ds }, trace := s.trace ++ [.sample true] } := by
  rw [step_of_waitArc hi ha, waitTurn_go _ _ (nextBit_of_cons s true ds hd), sampleLine_of_cons hd]
  rfl

theorem step_wait_timeout (hi : s.inbox = []) (ha : WaitArc s.phase after)
    (hd : s.env.d = false :: ds) (ht : s.cfg.timeoutPolls = some (s.tocnt + 1)) :
    step s = .next { s with
      env := { s.env with d := ds }, trace := s.trace ++ [.sample false],
      err := true, errcode := 2, phase := .fault, raised := some ⟨.fTimeout, s.phase⟩ } := by
  rw [step_of_waitArc hi ha, waitTurn_timeout _ _ (nextBit_of_cons s false ds hd) ht,
    sampleLine_of_cons hd]
  rfl

end Wait

/-- `k` samples of 0 short of the bound: the phase repeats, counting. -/
theorem reaches_wait_zeros (k : Nat) {s : State} {after : Phase} {ds : List Bool}
    (hi : s.inbox = []) (ha : WaitArc s.phase after)
    (hk : ∀ n, s.cfg.timeoutPolls = some n → s.tocnt + k < n)
    (hd : s.env.d = List.replicate k false ++ ds) :
    Reaches k s { s with
      tocnt := tocntWrite s.cfg s.tocnt (s.tocnt + k), env := { s.env with d := ds },
      trace := s.trace ++ List.replicate k (.sample false) } := by
  induction k generalizing s with
  | zero =>
    rw [reaches_zero]
    simp only [List.replicate_zero, List.nil_append, Nat.add_zero, tocntWrite_self,
      List.append_nil] at hd ⊢
    rw [← hd]
  | succ k ih =>
    have ht : s.cfg.timeoutPolls ≠ some (s.tocnt + 1) := fun h => by
      have := hk _ h; omega
    have hstep := step_wait_zero hi ha (ds := List.replicate k false ++ ds) hd ht
    refine reaches_succ k _ _ _ hstep ?_
    have hrest := ih (s := { s with
      tocnt := tocntWrite s.cfg s.tocnt (s.tocnt + 1),
      env := { s.env with d := List.replicate k false ++ ds },
      trace := s.trace ++ [.sample false] }) hi ha
      (fun n hn => by have := hk n hn; simp only [tocntWrite_present hn]; omega) rfl
    simpa [List.replicate_succ, Nat.add_assoc, Nat.add_comm 1 k] using hrest

/-- The waits of rule R139 as the phases' rules use them: zeros, then a 1. -/
theorem reaches_wait (k : Nat) {s : State} {after : Phase} {ds : List Bool}
    (hi : s.inbox = []) (ha : WaitArc s.phase after)
    (hk : ∀ n, s.cfg.timeoutPolls = some n → s.tocnt + k < n)
    (hd : s.env.d = List.replicate k false ++ true :: ds) :
    Reaches (k + 1) s { s with
      phase := after, tocnt := tocntWrite s.cfg s.tocnt (s.tocnt + k),
      env := { s.env with d := ds },
      trace := s.trace ++ List.replicate k (.sample false) ++ [.sample true] } :=
  reaches_snoc (reaches_wait_zeros k hi ha hk hd) (step_wait_one hi ha rfl)

/-! ### WAITRDY presented by itself (assumptions 12 and 25) -/

section Waitrdy
variable {s : State} {n : Nat} {ds : List Bool} {rest : List Event}

theorem step_waitrdy_zero (hi : s.inbox = .word [0x03, 2] :: rest)
    (ht : s.cfg.timeoutPolls = some n) (hn : s.polls + 1 ≠ n) (hd : s.env.d = false :: ds) :
    step s = .next { s with
      polls := s.polls + 1, env := { s.env with d := ds },
      trace := s.trace ++ [.sample false] } := by
  have hb : nextBit { s with inbox := rest } = false := nextBit_of_cons _ false ds hd
  have hsample := sampleLine_of_cons (s := { s with inbox := rest }) hd
  rw [step_of_inbox_word s [0x03, 2] .waitrdy rest hi rfl, exec_waitrdy_count hb ht hn, hsample,
    ← hi]

theorem step_waitrdy_timeout (hi : s.inbox = .word [0x03, 2] :: rest)
    (ht : s.cfg.timeoutPolls = some (s.polls + 1)) (hd : s.env.d = false :: ds) :
    step s = .next { s with
      inbox := rest, polls := 0, env := { s.env with d := ds },
      trace := s.trace ++ [.sample false],
      err := true, errcode := 2, phase := .fault, raised := some ⟨.fTimeout, s.phase⟩ } := by
  have hb : nextBit { s with inbox := rest } = false := nextBit_of_cons _ false ds hd
  have hsample := sampleLine_of_cons (s := { s with inbox := rest }) hd
  rw [step_of_inbox_word s [0x03, 2] .waitrdy rest hi rfl, exec_waitrdy_timeout hb ht, hsample]
  rfl

end Waitrdy

theorem reaches_waitrdy_zeros (k : Nat) {s : State} {n : Nat} {ds : List Bool} {rest : List Event}
    (hi : s.inbox = .word [0x03, 2] :: rest) (ht : s.cfg.timeoutPolls = some n)
    (hk : s.polls + k < n) (hd : s.env.d = List.replicate k false ++ ds) :
    Reaches k s { s with
      polls := s.polls + k, env := { s.env with d := ds },
      trace := s.trace ++ List.replicate k (.sample false) } := by
  induction k generalizing s with
  | zero =>
    rw [reaches_zero]
    simp only [List.replicate_zero, List.nil_append, Nat.add_zero, List.append_nil] at hd ⊢
    rw [← hd]
  | succ k ih =>
    have hstep := step_waitrdy_zero hi ht (by omega) (ds := List.replicate k false ++ ds) hd
    refine reaches_succ k _ _ _ hstep ?_
    have hrest := ih (s := { s with
      polls := s.polls + 1, env := { s.env with d := List.replicate k false ++ ds },
      trace := s.trace ++ [.sample false] }) hi ht (by simp only; omega) rfl
    simpa [List.replicate_succ, Nat.add_assoc, Nat.add_comm 1 k] using hrest

/-! ### The obligations about the waits -/

theorem exists_waitArc {p : Phase} (h : p = .xWait1 ∨ p = .xWait2) :
    WaitArc p (if p = .xWait1 then .xRx else .xClean) := by
  rcases h with rfl | rfl
  · exact .inl ⟨rfl, rfl⟩
  · exact .inr ⟨rfl, rfl⟩

/-- Settles O56: without a bound the zeros only pass. -/
theorem waitLastsWhileSamplesReadZero : Obligations.WaitLastsWhileSamplesReadZero := by
  intro s k ds hi hp ht hd
  have ha := exists_waitArc hp
  have hk : ∀ n, s.cfg.timeoutPolls = some n → s.tocnt + k < n := fun n hn => by simp [ht] at hn
  have hstay := tocntWrite_absent ht s.tocnt (s.tocnt + k)
  constructor
  · have hrun := reaches_wait_zeros k hi ha hk hd
    rwa [hstay] at hrun
  · rintro ds' rfl
    have hrun := reaches_wait k hi ha hk hd
    rwa [hstay] at hrun

/-- Settles O57: `n - 1` zeros are counted, the next faults. -/
theorem timeoutAfterExactlyItsPolls : Obligations.TimeoutAfterExactlyItsPolls := by
  intro s n ds hi hp h0 ht hd
  have ha := exists_waitArc hp
  have hzeros : ∀ j, j < n → Reaches j s { s with
      tocnt := j, env := { s.env with d := List.replicate (n - j) false ++ ds },
      trace := s.trace ++ List.replicate j (.sample false) } := by
    intro j hj
    have hrun := reaches_wait_zeros j hi ha
      (fun m hm => by rw [ht] at hm; cases hm; omega)
      (hd.trans (replicate_append_of_le false ds hj.le))
    rwa [tocntWrite_present ht, h0, Nat.zero_add] at hrun
  refine ⟨hzeros, ?_⟩
  obtain ⟨m, rfl⟩ := Nat.exists_eq_succ_of_ne_zero (timeoutPolls_pos ht).ne'
  have hrun := hzeros m (Nat.lt_succ_self m)
  rw [Nat.succ_sub (le_refl m), Nat.sub_self] at hrun
  have hend := reaches_snoc hrun (step_wait_timeout (ds := ds) hi ha rfl ht)
  rw [List.replicate_succ', ← List.append_assoc]
  exact hend

/-- Settles O29: `n - 1` zeros are counted in the model's own count, the next faults. -/
theorem waitReadyFaultsAtItsPolls : Obligations.WaitReadyFaultsAtItsPolls := by
  intro s n ds rest hi h0 ht hd
  have hzeros : ∀ j, j < n → Reaches j s { s with
      polls := j, env := { s.env with d := List.replicate (n - j) false ++ ds },
      trace := s.trace ++ List.replicate j (.sample false) } := by
    intro j hj
    have hrun := reaches_waitrdy_zeros j hi ht (by omega)
      (hd.trans (replicate_append_of_le false ds hj.le))
    rwa [h0, Nat.zero_add] at hrun
  refine ⟨hzeros, ?_⟩
  obtain ⟨m, rfl⟩ := Nat.exists_eq_succ_of_ne_zero (timeoutPolls_pos ht).ne'
  have hrun := hzeros m (Nat.lt_succ_self m)
  rw [Nat.succ_sub (le_refl m), Nat.sub_self] at hrun
  have hend := reaches_snoc hrun (step_waitrdy_timeout (ds := ds) hi ht rfl)
  rw [List.replicate_succ', ← List.append_assoc, h0]
  exact hend

end Sys2Proof.Machine
end

section
/-! The two whole operations (`43_choreography_fsm.md` rules R151, R152; `70_reset_and_hazards.md`
rule R243): the receive loop and the transmission by induction, then each operation as the chain of its
segments. -/

namespace Sys2Proof.Machine

/-! ### The receive loop -/

theorem readUnit_of_cons {s : State} {u : XUnit} {us : List XUnit} (h : s.env.rx = u :: us) :
    readUnit s =
      { s with env := { s.env with rx := us }, trace := s.trace ++ [.rd s.cfg.padByte] } := by
  rw [readUnit, dropRx_of_cons h]; rfl

section Receive
variable {s : State} {after : Phase} {ds : List Bool}

theorem step_of_receiveArc (hi : s.inbox = []) (ha : ReceiveArc s.phase after) :
    step s = .next (receiveTurn s.phase after s) := by
  rw [step_of_inbox_nil s hi]
  rcases ha with ⟨hp, rfl⟩ | ⟨hp, rfl⟩ <;> rw [hp] <;> rfl

theorem step_receive_end (hi : s.inbox = []) (ha : ReceiveArc s.phase after)
    (hd : s.env.d = false :: ds) :
    step s = .next { s with
      phase := after, env := { s.env with d := ds }, trace := s.trace ++ [.sample false] } := by
  rw [step_of_receiveArc hi ha, receiveTurn_end _ _ (nextBit_of_cons s false ds hd),
    sampleLine_of_cons hd]
  rfl

/-- A unit whose accumulation fits does not overflow. -/
theorem not_overflow_of_fits {p : Params} {raw : Bytes} {w : XUnit}
    (h : ∀ n, p.nRawMax = some n → (accUnit p raw w).length ≤ n) :
    (filtKeep p (swapUnit w) && overRawMax p raw) = false := by
  cases hk : filtKeep p (swapUnit w) with
  | false => rfl
  | true =>
    refine (overRawMax_eq_false_iff p raw).2 fun n hn => ?_
    simpa [accUnit_keep p raw w hk] using h n hn

/-- One unit received, kept or dropped. -/
theorem step_receive_unit {w : XUnit} {us : List XUnit} (hi : s.inbox = [])
    (ha : ReceiveArc s.phase after) (hd : s.env.d = true :: ds) (hrx : s.env.rx = w :: us)
    (hfit : ∀ n, s.cfg.nRawMax = some n → (accUnit s.cfg s.raw w).length ≤ n) :
    step s = .next { s with
      raw := accUnit s.cfg s.raw w, env := { s.env with d := ds, rx := us },
      trace := s.trace ++ [.sample true, .rd s.cfg.padByte] } := by
  have hu : nextRx (sampleLine s) = w := by
    rw [sampleLine_of_cons hd]; exact nextRx_of_cons _ w us hrx
  have hread := readUnit_of_cons (s := sampleLine s) (u := w) (us := us) (by simpa using hrx)
  have hno := not_overflow_of_fits hfit
  rw [step_of_receiveArc hi ha, receiveTurn, nextBit_of_cons s true ds hd, if_pos rfl, receiveUnit,
    hu, sampleLine_cfg, sampleLine_raw, hno, hread, sampleLine_of_cons hd]
  simp [goto_eq]

end Receive

/-- The loop over a whole WIRE list (rule R112). -/
theorem reaches_receive (ws : List XUnit) {s : State} {after : Phase} {ds : List Bool}
    {us : List XUnit} (hi : s.inbox = []) (ha : ReceiveArc s.phase after)
    (hd : s.env.d = List.replicate ws.length true ++ ds) (hrx : s.env.rx = ws ++ us)
    (hfit : ∀ n, s.cfg.nRawMax = some n → (ws.foldl (accUnit s.cfg) s.raw).length ≤ n) :
    Reaches ws.length s { s with
      raw := ws.foldl (accUnit s.cfg) s.raw, env := { s.env with d := ds, rx := us },
      trace := s.trace ++
        (List.replicate ws.length [.sample true, .rd s.cfg.padByte]).flatten } := by
  induction ws generalizing s with
  | nil =>
    simp only [List.length_nil, List.replicate_zero, List.nil_append] at hd hrx
    simp [← hd, ← hrx]
  | cons w ws ih =>
    have hfirst : ∀ n, s.cfg.nRawMax = some n → (accUnit s.cfg s.raw w).length ≤ n := fun n hn =>
      (length_le_foldl_accUnit s.cfg ws _).trans (hfit n hn)
    have hstep := step_receive_unit (ds := List.replicate ws.length true ++ ds) (us := ws ++ us)
      hi ha hd hrx hfirst
    refine reaches_succ ws.length _ _ _ hstep ?_
    have hrest := ih (s := { s with
      raw := accUnit s.cfg s.raw w,
      env := { s.env with d := List.replicate ws.length true ++ ds, rx := ws ++ us },
      trace := s.trace ++ [.sample true, .rd s.cfg.padByte] }) hi ha rfl rfl hfit
    simpa [List.replicate_succ] using hrest

/-- The loop from the empty accumulator to the sample of 0 that ends it. -/
theorem reaches_received (ws : List XUnit) {s : State} {after : Phase} {ds : List Bool}
    {us : List XUnit} (hi : s.inbox = []) (ha : ReceiveArc s.phase after) (hraw : s.raw = [])
    (hd : s.env.d = List.replicate ws.length true ++ false :: ds) (hrx : s.env.rx = ws ++ us)
    (hfit : ∀ n, s.cfg.nRawMax = some n → (accAll s.cfg ws).length ≤ n) :
    Reaches (ws.length + 1) s { s with
      phase := after, raw := accAll s.cfg ws, env := { s.env with d := ds, rx := us },
      trace := s.trace ++ (List.replicate ws.length [.sample true, .rd s.cfg.padByte]).flatten ++
        [.sample false] } := by
  have hrun := reaches_receive ws (after := after) hi ha hd hrx (by rw [hraw]; exact hfit)
  rw [hraw] at hrun
  exact reaches_snoc hrun (step_receive_end hi ha rfl)

/-! ### INIT -/

/-- An INIT from its offer to the end of the drain. -/
theorem reaches_drained (ws : List XUnit) {s : State} {ds : List Bool} {us : List XUnit}
    (hp : s.phase = .uninit ∨ s.phase = .idle) (hi : s.inbox = [.word [0x01, 0]])
    (hd : s.env.d = List.replicate ws.length true ++ false :: ds) (hrx : s.env.rx = ws ++ us)
    (hfit : ∀ n, s.cfg.nRawMax = some n → (accAll s.cfg ws).length ≤ n) :
    Reaches (4 + (ws.length + 1)) s { s with
      phase := .iCheck, initOk := false, done := false, cs := true, rst := false,
      raw := accAll s.cfg ws, inbox := [], reply := some .accepted,
      env := { s.env with d := ds, rx := us },
      trace := s.trace ++ initTrace s.cfg.padByte ws.length } := by
  have hoffer := reaches_one s _
    ((step_of_inbox_word s _ .init [] hi rfl).trans (offersAccepted.1 _ hp))
  have hassert := reaches_snoc hoffer (step_of_row rfl rfl (resetLinePhases _).1)
  have hrelease := reaches_snoc hassert (step_of_row rfl rfl (resetLinePhases _).2)
  have hselect := reaches_snoc hrelease (step_of_row rfl rfl (initSelectPhase _))
  have hrun := reaches_trans _ _ _ _ _ hselect
    (reaches_received ws (after := .iCheck) rfl (.inl ⟨rfl, rfl⟩) rfl hd hrx hfit)
  dsimp only at hrun
  simpa [initTrace] using hrun

theorem one_add_initSteps (m : Nat) : 1 + initSteps m = 4 + (m + 1) + 1 := by
  rw [initSteps]; omega

/-- Settles O58: the drained content is the prompt. -/
theorem wholeInitCompletes : Obligations.WholeInitCompletes := by
  intro s ws ds us hp hi hd hrx hfit hm
  rw [one_add_initSteps]
  exact reaches_snoc (reaches_drained ws hp hi hd hrx hfit)
    (step_of_row rfl rfl (exec_sICheck_match hm))

/-- Settles O59: the drained content is something else. -/
theorem wholeInitFails : Obligations.WholeInitFails := by
  intro s ws ds us hp hi hd hrx hfit hm
  rw [one_add_initSteps]
  exact reaches_snoc (reaches_drained ws hp hi hd hrx hfit)
    (step_of_row rfl rfl (exec_sICheck_differ hm))

/-! ### The transmission -/

/-- The exchanges take nothing from the samples. -/
theorem iterate_dropTxrx_d (k : Nat) (e : Env) : (dropTxrx^[k] e).d = e.d := by
  induction k generalizing e with
  | zero => rfl
  | succ k ih => rw [Function.iterate_succ_apply, ih, dropTxrx_d]

/-- The exchanges take nothing from the units of the reads. -/
theorem iterate_dropTxrx_rx (k : Nat) (e : Env) : (dropTxrx^[k] e).rx = e.rx := by
  induction k generalizing e with
  | zero => rfl
  | succ k ih => rw [Function.iterate_succ_apply, ih, dropTxrx_rx]

theorem exchange_eq (u : XUnit) (s : State) :
    exchange u s = { s with env := dropTxrx s.env, trace := s.trace ++ [.xchg u] } := rfl

/-- The words from `TXI` to the end of the frame, one exchange each. -/
theorem reaches_transmit (k : Nat) {s : State} (hi : s.inbox = []) (hp : s.phase = .xTx)
    (hk : s.txi + (k + 1) = s.txbuf.length / 2) :
    Reaches (k + 1) s { s with
      phase := .xDesel2, txi := s.txbuf.length / 2, env := dropTxrx^[k + 1] s.env,
      trace := s.trace ++
        ((List.range' s.txi (k + 1)).map fun i => .xchg (packAt s.txbuf i)) } := by
  induction k generalizing s with
  | zero =>
    have hstep := step_of_row hi hp (exec_sXTx s)
    rw [if_pos hk] at hstep
    rw [← hk]
    exact reaches_one _ _ hstep
  | succ k ih =>
    have hstep := step_of_row hi hp (exec_sXTx s)
    rw [if_neg (by omega)] at hstep
    refine reaches_succ (k + 1) _ _ _ hstep ?_
    have hrest := ih (s := goto .xTx
      { exchange (packAt s.txbuf s.txi) s with txi := s.txi + 1 }) hi rfl (by
        simp only [goto_txi, goto_txbuf, exchange_txbuf]; omega)
    simpa [goto_eq, exchange_eq, List.range'_succ] using hrest

/-! ### EXEC -/

section Exec
variable {s : State} {c : Bytes}

/-- From the offer to the first exchange. -/
theorem reaches_selected (hp : s.phase = .idle) (hi : s.inbox = [.word (0x01 :: 1 :: c)])
    (hc : ∀ n, s.cfg.nCmdMax = some n → c.length ≤ n) :
    Reaches 4 s { s with
      cmd := c, txbuf := pad c, txi := 0, raw := [], phase := .xTx, cs := true, done := false,
      inbox := [], reply := some .accepted, trace := s.trace ++ [.desel] ++ [.sel] } := by
  have hoffer := reaches_one s _
    ((step_of_inbox_word s _ (.exec c) [] hi rfl).trans (offersAccepted.2 _ c hp hc))
  have hpad := reaches_snoc hoffer (step_of_row rfl rfl (padPhase _))
  have hdesel := reaches_snoc hpad (step_of_row rfl rfl (handshakePhases.2 _).1)
  have hsel := reaches_snoc hdesel (step_of_row rfl rfl (handshakePhases.2 _).2.1)
  rw [pad_eq_ite]
  exact hsel

end Exec

theorem exec_sXSel2_eq_write (s : State) :
    exec .sXSel2 s = .next { s with
      phase := .xWait1, cs := true, tocnt := tocntWrite s.cfg s.tocnt 0,
      trace := s.trace ++ [.sel] } := by
  rw [exec_sXSel2, clearTocnt_eq_write]; rfl

theorem exec_sXDesel3_eq_write (s : State) :
    exec .sXDesel3 s = .next { s with
      phase := .xWait2, cs := false, tocnt := tocntWrite s.cfg s.tocnt 0,
      trace := s.trace ++ [.desel] } := by
  rw [exec_sXDesel3, clearTocnt_eq_write]; rfl

/-- From the first exchange into the first wait: the frame, then the second handshake. -/
theorem reaches_sent {s : State} (c : Bytes) (hi : s.inbox = []) (hp : s.phase = .xTx)
    (hbuf : s.txbuf = pad c) (htxi : s.txi = 0) :
    Reaches (c.length / 2 + 1 + 2) s { s with
      phase := .xWait1, txi := c.length / 2 + 1, cs := true,
      tocnt := tocntWrite s.cfg s.tocnt 0, env := dropTxrx^[c.length / 2 + 1] s.env,
      trace := s.trace ++ (frameUnits c).map .xchg ++ [.desel] ++ [.sel] } := by
  have hwords : (pad c).length / 2 = c.length / 2 + 1 := by rw [pad_length]; omega
  have hsent := reaches_transmit (c.length / 2) hi hp (by rw [hbuf, htxi, hwords, Nat.zero_add])
  have hunits : (List.range' s.txi (c.length / 2 + 1)).map
      (fun i => TraceItem.xchg (packAt s.txbuf i)) = (frameUnits c).map .xchg := by
    rw [htxi, hbuf, frameUnits, hwords, List.range_eq_range', List.map_map]; rfl
  rw [hunits, hbuf, hwords] at hsent
  have hdesel := reaches_snoc hsent (step_of_row hi rfl (handshakePhases.2 _).2.2)
  have hsel := reaches_snoc hdesel (step_of_row hi rfl (exec_sXSel2_eq_write _))
  rw [← hbuf] at hsel
  exact hsel

/-- From the first wait to the end: first wait, reception, deselect, second wait, cleaning. -/
theorem reaches_responded (ws : List XUnit) (p q : Nat) {s : State} {ds : List Bool}
    {us : List XUnit} (hi : s.inbox = []) (hp : s.phase = .xWait1) (hraw : s.raw = [])
    (hto : ∀ n, s.cfg.timeoutPolls = some n → s.tocnt + p < n ∧ q < n)
    (hd : s.env.d = List.replicate p false ++ true ::
      (List.replicate ws.length true ++ false :: (List.replicate q false ++ true :: ds)))
    (hrx : s.env.rx = ws ++ us)
    (hfit : ∀ n, s.cfg.nRawMax = some n → (accAll s.cfg ws).length ≤ n) :
    Reaches (p + 1 + (ws.length + 1) + 1 + (q + 1) + 1) s { s with
      raw := accAll s.cfg ws, resp := cleanRaw s.cfg (accAll s.cfg ws), phase := .idle,
      cs := false, done := true, tocnt := tocntWrite s.cfg s.tocnt q,
      env := { s.env with d := ds, rx := us },
      trace := s.trace ++ List.replicate p (.sample false) ++ [.sample true] ++
        (List.replicate ws.length [.sample true, .rd s.cfg.padByte]).flatten ++ [.sample false] ++
        [.desel] ++ List.replicate q (.sample false) ++ [.sample true] } := by
  have hwait1 := reaches_wait p hi (.inl ⟨hp, rfl⟩) (fun n hn => (hto n hn).1) hd
  have hreceived := reaches_trans _ _ _ _ _ hwait1
    (reaches_received ws hi (.inr ⟨rfl, rfl⟩) hraw rfl hrx hfit)
  have hdesel := reaches_snoc hreceived (step_of_row hi rfl (exec_sXDesel3_eq_write _))
  dsimp only at hdesel
  rw [tocntWrite_tocntWrite] at hdesel
  have hbound : ∀ n, s.cfg.timeoutPolls = some n → tocntWrite s.cfg s.tocnt 0 + q < n :=
    fun n hn => by rw [tocntWrite_present hn, Nat.zero_add]; exact (hto n hn).2
  have hwait2 := reaches_trans _ _ _ _ _ hdesel
    (reaches_wait q hi (.inr ⟨rfl, rfl⟩) hbound rfl)
  have hrun := reaches_snoc hwait2 (step_of_row hi rfl (cleanPhase _))
  dsimp only at hrun
  rw [tocntWrite_tocntWrite, tocntWrite_tocntWrite_add, Nat.zero_add] at hrun
  exact hrun

theorem one_add_execSteps (n p m q : Nat) :
    1 + execSteps n p m q = 4 + (n / 2 + 1 + 2) + (p + 1 + (m + 1) + 1 + (q + 1) + 1) := by
  rw [execSteps]; omega

theorem execSamples_append (p m q : Nat) (ds : List Bool) :
    execSamples p m q ++ ds = List.replicate p false ++ true ::
      (List.replicate m true ++ false :: (List.replicate q false ++ true :: ds)) := by
  simp [execSamples]

/-- Settles O60: selection, transmission, response. -/
theorem wholeExecCompletes : Obligations.WholeExecCompletes := by
  intro s c ws p q ds us hp hi hc hd hrx hto hfit
  have hsent := reaches_trans _ _ _ _ _ (reaches_selected hp hi hc) (reaches_sent c rfl rfl rfl rfl)
  dsimp only at hsent
  have hbound : ∀ n, s.cfg.timeoutPolls = some n → tocntWrite s.cfg s.tocnt 0 + p < n ∧ q < n :=
    fun n hn => by rw [tocntWrite_present hn, Nat.zero_add]; exact hto n hn
  have hsamples := (iterate_dropTxrx_d (c.length / 2 + 1) s.env).trans
    (hd.trans (execSamples_append p ws.length q ds))
  have hunits := (iterate_dropTxrx_rx (c.length / 2 + 1) s.env).trans hrx
  have hrun := reaches_trans _ _ _ _ _ hsent
    (reaches_responded ws p q rfl rfl rfl hbound hsamples hunits hfit)
  dsimp only at hrun
  rw [tocntWrite_tocntWrite] at hrun
  rw [one_add_execSteps]
  refine ⟨_, { dropTxrx^[c.length / 2 + 1] s.env with d := ds, rx := us }, hrun, rfl, rfl, ?_⟩
  simp [execTrace, tocntWrite]

end Sys2Proof.Machine
end
